-- ==== Sys2Proof/Word.lean ====
section
/-!
DEFINITION. The two word types of the engine: a packet field (8 bits) and a packet (32 bits)
(30_encoding.md R91). Everything computed from them stands in Decode.lean and Machine/.
-/

namespace Sys2Proof

/-- One field of a packet, a device id, an opcode, an argument, a scan identifier (8 bits). -/
abbrev Byte := BitVec 8

/-- A packet word, `P32` (32 bits). -/
abbrev Word := BitVec 32

end Sys2Proof
end

