-- ==== Sys2Proof/Config.lean ====
section
/-!
DEFINITION. The fixed parameters of the hardware (00_scope.md R9) and the open ones
(00_scope.md R10). An open parameter has no value here: it is an opaque constant, which nothing in
Lean can evaluate, and it only enters `Machine.State.reset`. Every other definition takes the
parameters from the state, so a statement over every state holds for every value of them.
-/

namespace Sys2Proof.Config

/-- `N`: packet width in bits, the number of data cycles of a frame (00_scope.md R9). -/
def packetBits : Nat := 32

/-- `MAX_ID`: the highest assignable device id (00_scope.md R9). -/
def maxId : Nat := 254

/-- `BCAST_ID`: the broadcast address (00_scope.md R9). -/
def bcastId : Byte := 255

/-- `IDENT_LEN`: identity bytes per device (00_scope.md R9). -/
def identLen : Nat := 3

/-- `MARKERS`: the number of markers that close a session (00_scope.md R9). -/
def markers : Nat := 3

/-- `SCAN_BITS`: identifier bits of a contact-scan frame (00_scope.md R9). -/
def scanBits : Nat := 8

/-- `GAP`: idle ticks before an id assignment and before the markers, 2N + 2 (00_scope.md R9). -/
def gap : Nat := 66

/-- `SCAN_CHECK_VALID`: the level of the check bit that marks a scan frame valid (00_scope.md R9). -/
def scanCheckValid : Bool := true

/-- DESIGN CHOICE, log 3: `TH` is open with `TH >= 2` (00_scope.md R10); it is this constant plus 2. -/
opaque thresholdOver : Nat

/-- DESIGN CHOICE, log 3: `NUM_SCAN` is open with `NUM_SCAN >= 1` (00_scope.md R10); it is this
constant plus 1. -/
opaque scanLinesOver : Nat

/-- DESIGN CHOICE, log 3: `SCAN_MAP` is open (00_scope.md R10, 45_dispatcher.md R291). One row is
(line, identifier, device - 1, command, argument, fire-and-forget). -/
opaque scanRows : List (Nat × Byte × Fin 254 × Byte × Byte × Bool)

/-- DESIGN CHOICE, log 4: `MY_TYPE` of the slave that is present at reset, any byte
(93_implementation_defined.md section 1). -/
opaque myType : Byte

/-- DESIGN CHOICE, log 4: `MY_IDENT` of the slave that is present at reset (00_scope.md R10). -/
opaque myIdent : Byte × Byte × Byte

end Sys2Proof.Config
end

