-- ==== Sys2Proof/Syntax.lean ====
section
/-!
DEFINITION. The instructions: one constructor per row of spec/opcode_table.json. A packet row has
the fields of the packet format that the row leaves open (30_encoding.md R91), the checksum byte among
them (log 6); a host row has the operands of the abstract command (45_dispatcher.md R281).
-/

namespace Sys2Proof

/-- The 26 rows of the opcode table. -/
inductive Instr where
  | nop (uid arg cks : Byte)
  | endOfTurn (uid arg cks : Byte)
  | data (uid arg cks : Byte)
  | error (uid arg cks : Byte)
  | ok (uid arg cks : Byte)
  | newDevice (uid arg cks : Byte)
  | disconnect (uid arg cks : Byte)
  | lightOn (uid arg cks : Byte)
  | lightOff (uid arg cks : Byte)
  | stop (uid arg cks : Byte)
  | motorA (uid arg cks : Byte)
  | motorB (uid arg cks : Byte)
  | uidByte1 (uid arg cks : Byte)
  | uidByte2 (uid arg cks : Byte)
  | uidByte3 (uid arg cks : Byte)
  | typeQuery (uid arg cks : Byte)
  | train (uid arg cks : Byte)
  | station (uid arg cks : Byte)
  | unrecognised (uid cmd arg cks : Byte)
  | hostLight1
  | hostLight0
  | hostMotor (dir : BitVec 4) (speed : Byte)
  | hostBitmap
  | hostEnable
  | hostCancel
  | hostLastFault
  deriving DecidableEq, Repr

/-- Where an instruction comes from: a packet off the data line, or a command on the host port
(30_encoding.md R90). -/
inductive Source where
  | line
  | host
  deriving DecidableEq, Repr

/-- The source of each instruction. -/
def Instr.source : Instr → Source
  | .nop .. => .line
  | .endOfTurn .. => .line
  | .data .. => .line
  | .error .. => .line
  | .ok .. => .line
  | .newDevice .. => .line
  | .disconnect .. => .line
  | .lightOn .. => .line
  | .lightOff .. => .line
  | .stop .. => .line
  | .motorA .. => .line
  | .motorB .. => .line
  | .uidByte1 .. => .line
  | .uidByte2 .. => .line
  | .uidByte3 .. => .line
  | .typeQuery .. => .line
  | .train .. => .line
  | .station .. => .line
  | .unrecognised .. => .line
  | .hostLight1 => .host
  | .hostLight0 => .host
  | .hostMotor .. => .host
  | .hostBitmap => .host
  | .hostEnable => .host
  | .hostCancel => .host
  | .hostLastFault => .host

end Sys2Proof
end

