-- ==== Sys2Proof/Machine/State.lean ====
section
/-!
DEFINITION. The state of the whole system as plain data: every register of 10_state.md, the open
parameters (log 3, log 4), and the model's own fields (the inputs still to come, the drives of the
environment, the agent whose word is interpreted, the answer on the host port). Its reset value
(10_state.md R46), and the reasons a step can stop.
-/

namespace Sys2Proof.Machine

/-- Faults of the MODEL. The machine's own faults (60_exceptions.md R311) are next states; these
three name situations the rules exclude, and no state that meets `Safety.lean`'s invariant raises
one. Each is safe: the model stops where the rules give the hardware no behaviour. -/
inductive Fault where
  /-- An access to `tab[0]`, `tab[255]` or past the table, which do not exist (10_state.md R33).
  Raised by reply handling, the poll and dispatch. Safe. -/
  | noTableEntry
  /-- The gap before an assignment ends with every id in use, which 42_master.md R183 excludes ("not
  None: the train runs only when an id is free"). Raised by the `GAP_ASSIGN` tick. Safe. -/
  | noFreeId
  /-- `MasterDecide` has not returned after the three rounds 42_master.md R170 allows: it was entered
  in `AwaitingHandshakeReply`, which R170 excludes. Raised by `MasterDecide`. Safe. -/
  | decisionLoop
  deriving DecidableEq, Repr

/-- Refusals: the calls and configurations that 93_implementation_defined.md section 3 tells a model
to refuse. All are safe. -/
inductive Refusal where
  /-- An instruction with no meaning yet; raised by `exec`'s arms only. Safe. -/
  | notModelled (mnemonic : String)
  /-- `arm_tx` or `arm_rx` while `fmode != IDLE` (40_framer.md R120); raised by the arming
  operations. Safe. -/
  | armWhileBusy
  /-- The packet variant without checksum (00_scope.md R8); raised by the tick. Safe. -/
  | checksumOff
  /-- An identity length other than 3 (00_scope.md R8); raised by the tick. Safe. -/
  | identityLength
  /-- The fault threshold disabled (00_scope.md R8); raised by the tick. Safe. -/
  | thresholdDisabled
  /-- `TH < 2` (00_scope.md R10); raised by the tick. Safe. -/
  | thresholdTooSmall
  /-- `NUM_SCAN < 1` (00_scope.md R10); raised by the tick. Safe. -/
  | noScanLine
  /-- Not exactly one master on the data line (00_scope.md R7); raised by the tick. Safe. -/
  | masterCount
  /-- `SCAN_MAP` returned device 0 or 255 (00_scope.md R10); raised by dispatch. Safe. -/
  | scanMapDevice
  /-- More than one host command on one tick (45_dispatcher.md R280); raised by the tick. Safe. -/
  | hostCommands
  deriving DecidableEq, Repr

/-- `fmode` (10_state.md R21). -/
inductive FMode where
  | idle
  | tx
  | rx
  deriving DecidableEq, Repr

/-- `rx_sub` (10_state.md R23). -/
inductive RxSub where
  | seekHi
  | seekLo
  | data
  deriving DecidableEq, Repr

/-- `fstatus` (10_state.md R24). -/
inductive FStatus where
  | ok
  | sync
  deriving DecidableEq, Repr

/-- The framer registers, one set in the master and one in every slave (10_state.md R20 to R25). -/
structure Framer where
  /-- `fmode` (R21). -/
  fmode : FMode
  /-- `tx_word`, 32 bits (R22). -/
  txWord : Word
  /-- `tx_pos`, 7 bits, 0 to 66 (R22). -/
  txPos : Nat
  /-- `rx_sub` (R23). -/
  rxSub : RxSub
  /-- `rx_pos`, 6 bits, 0 to 63 (R23). -/
  rxPos : Nat
  /-- `rx_val`, 32 bits (R23). -/
  rxVal : Word
  /-- `fails`, wide enough for `TH` (R23, log 16). -/
  fails : Nat
  /-- `fdone`, 1 bit (R24). -/
  fdone : Bool
  /-- `fstatus`, 1 bit (R24). -/
  fstatus : FStatus
  /-- `drv`, 1 bit (R25). -/
  drv : Bool
  deriving DecidableEq, Repr

/-- Reset values of a framer (10_state.md R46). -/
def Framer.reset : Framer :=
  { fmode := .idle, txWord := 0, txPos := 0, rxSub := .seekHi, rxPos := 0, rxVal := 0, fails := 0,
    fdone := false, fstatus := .ok, drv := false }

/-- `mstate` (10_state.md R26). -/
inductive MState where
  | acceptingConnections
  | awaitingHandshakeReply
  | polling
  deriving DecidableEq, Repr

/-- `mph` (10_state.md R27). -/
inductive MPhase where
  | idle
  | invFirst
  | invB
  | invA
  | gapAssign
  | gapMarker
  | txPoll
  | txBcast
  | txAnnounce
  | txMarker
  | rxReply
  deriving DecidableEq, Repr

/-- The fault codes (60_exceptions.md R311). Codes 5 to 7 are never written
(93_implementation_defined.md section 4). -/
inductive FaultCode where
  | none
  | sync
  | protocol
  | checksum
  | disconnect
  deriving DecidableEq, Repr

/-- `kind` (10_state.md R33). -/
inductive Kind where
  | disconnected
  | train
  | station
  | unspecified
  deriving DecidableEq, Repr

/-- `stage` (10_state.md R33). -/
inductive Stage where
  | expectType
  | expectIdentityByte0
  | expectIdentityByte1
  | expectIdentityByte2
  | expectAck
  | expectAny
  deriving DecidableEq, Repr

/-- Three identity bytes (10_state.md R33, 00_scope.md R10). -/
structure Ident where
  b0 : Byte
  b1 : Byte
  b2 : Byte
  deriving DecidableEq, Repr

/-- One entry of the device table (10_state.md R33). -/
structure Entry where
  /-- `kind`. -/
  kind : Kind
  /-- `identity[0..2]`. -/
  identity : Ident
  /-- `pend_valid`, 1 bit. -/
  pendValid : Bool
  /-- `pend_cmd`, 8 bits. -/
  pendCmd : Byte
  /-- `stage`. -/
  stage : Stage
  /-- `arg`, 16 bits. -/
  arg : BitVec 16
  deriving DecidableEq, Repr

/-- The reset value of an entry (10_state.md R46), which deletion writes too (60_exceptions.md R318). -/
def Entry.reset : Entry :=
  { kind := .disconnected, identity := ⟨0, 0, 0⟩, pendValid := false, pendCmd := 0,
    stage := .expectType, arg := 0 }

/-- The master's registers (10_state.md R26 to R34) with its framer. -/
structure Master where
  /-- The master's framer registers (R20). -/
  fr : Framer
  /-- `pwr_drv`, 1 bit (R34). -/
  pwrDrv : Bool
  /-- `mstate` (R26). -/
  mstate : MState
  /-- `mph` (R27). -/
  mph : MPhase
  /-- `cursor`, 8 bits, 1 to 254 (R28). -/
  cursor : Byte
  /-- `session`, 1 bit (R29). -/
  session : Bool
  /-- `mk_cnt`, 2 bits, 0 to 3 (R29). -/
  mkCnt : Nat
  /-- `gap_cnt`, 7 bits, 0 to 66 (R29). -/
  gapCnt : Nat
  /-- `enum_en`, 1 bit (R30). -/
  enumEn : Bool
  /-- `bc_valid`, 1 bit (R31). -/
  bcValid : Bool
  /-- `bc_cmd`, 8 bits (R31). -/
  bcCmd : Byte
  /-- `bc_arg`, 8 bits (R31). -/
  bcArg : Byte
  /-- `last_fault`, 3 bits (R32). -/
  lastFault : FaultCode
  /-- `cap_fault`, 1 bit (R32). -/
  capFault : Bool
  /-- `tab[1..254]`: entry `i` stands at position `i - 1` (R33). -/
  tab : List Entry
  deriving DecidableEq, Repr

/-- Reset values of the master (10_state.md R46). -/
def Master.reset : Master :=
  { fr := Framer.reset, pwrDrv := true, mstate := .acceptingConnections, mph := .idle, cursor := 1,
    session := true, mkCnt := 0, gapCnt := 0, enumEn := true, bcValid := false, bcCmd := 0,
    bcArg := 0, lastFault := .none, capFault := false, tab := List.replicate 254 Entry.reset }

/-- `sstate` (10_state.md R35). -/
inductive SState where
  | unassigned
  | respondPending
  | serving
  | standingBy
  deriving DecidableEq, Repr

/-- `sph` (10_state.md R35). -/
inductive SPhase where
  | listen
  | presRel
  | rx
  | tx
  deriving DecidableEq, Repr

/-- `after_tx` (10_state.md R35). -/
inductive AfterTx where
  | none
  | serving
  | standingBy
  deriving DecidableEq, Repr

/-- `motor_dir` (10_state.md R36). -/
inductive MotorDir where
  | stop
  | fwd
  | rev
  deriving DecidableEq, Repr

/-- The parameters of one slave: `MY_TYPE` (any byte, 93_implementation_defined.md section 1) and
`MY_IDENT` (00_scope.md R10). No step changes them. -/
structure SlaveCfg where
  /-- `MY_TYPE`. -/
  myType : Byte
  /-- `MY_IDENT`. -/
  myIdent : Ident
  deriving DecidableEq, Repr

/-- One slave (10_state.md R35, R36) with its framer and its parameters. -/
structure Slave where
  /-- `MY_TYPE` and `MY_IDENT`. -/
  cfg : SlaveCfg
  /-- The slave's framer registers (R20). -/
  fr : Framer
  /-- `sstate` (R35). -/
  sstate : SState
  /-- `sph` (R35). -/
  sph : SPhase
  /-- `own_id`, 8 bits, 0 while unassigned (R35). -/
  ownId : Byte
  /-- `after_tx` (R35). -/
  afterTx : AfterTx
  /-- `smk`, 2 bits, 0 to 3 (R35). -/
  smk : Nat
  /-- `light`, 1 bit (R36). -/
  light : Bool
  /-- `motor_dir` (R36). -/
  motorDir : MotorDir
  /-- `motor_speed`, 8 bits (R36). -/
  motorSpeed : Byte
  deriving DecidableEq, Repr

/-- Reset values of a slave with the given parameters (10_state.md R46). -/
def Slave.reset (c : SlaveCfg) : Slave :=
  { cfg := c, fr := Framer.reset, sstate := .unassigned, sph := .listen, ownId := 0,
    afterTx := .none, smk := 0, light := false, motorDir := .stop, motorSpeed := 0 }

/-- `sc_ph` (10_state.md R37). -/
inductive ScanPhase where
  | pulse
  | rel
  | probe
  | bit
  | check
  deriving DecidableEq, Repr

/-- The contact-scan registers (10_state.md R37). -/
structure Scan where
  /-- `sc_idx`, 0 to NUM_SCAN - 1. -/
  scIdx : Nat
  /-- `sc_ph`. -/
  scPh : ScanPhase
  /-- `sc_k`, 4 bits, 0 to 8. -/
  scK : Nat
  /-- `sc_val`, 8 bits. -/
  scVal : Byte
  /-- `sc_drv[0..NUM_SCAN-1]`, 1 bit each. -/
  scDrv : List Bool
  /-- `cache[0..NUM_SCAN-1]`, 8 bits each. -/
  cache : List Byte
  deriving DecidableEq, Repr

/-- Reset values of the scan engine with `n` lines (10_state.md R46). -/
def Scan.reset (n : Nat) : Scan :=
  { scIdx := 0, scPh := .pulse, scK := 0, scVal := 0, scDrv := List.replicate n false,
    cache := List.replicate n 0 }

/-- The report mailbox (10_state.md R38). -/
structure Mailbox where
  /-- `rep_valid`, 1 bit. -/
  valid : Bool
  /-- `rep_line`, the range of `sc_idx`. -/
  line : Nat
  /-- `rep_id`, 8 bits. -/
  ident : Byte
  deriving DecidableEq, Repr

/-- Reset values of the mailbox (10_state.md R46). -/
def Mailbox.reset : Mailbox := { valid := false, line := 0, ident := 0 }

/-- What `SCAN_MAP` gives for a report (00_scope.md R10, 45_dispatcher.md R291). -/
structure ScanTarget where
  /-- The device, 1 to 254. -/
  dev : Byte
  /-- The command. -/
  cmd : Byte
  /-- The argument. -/
  arg : Byte
  /-- The fire-and-forget flag. -/
  ff : Bool
  deriving DecidableEq, Repr

/-- One row of `SCAN_MAP`: a report and its target (log 3). -/
structure ScanRow where
  line : Nat
  ident : Byte
  target : ScanTarget
  deriving DecidableEq, Repr

/-- The parameters of the system (00_scope.md R10) and the variant switches a model must refuse away
from the canonical setting (00_scope.md R7, R8). No step changes them. -/
structure Params where
  /-- The checksum variant is on (R8). -/
  checksumOn : Bool
  /-- Identity length (R8). -/
  identLen : Nat
  /-- The master's fault threshold `TH`, or none where it is disabled (R8, R10). -/
  threshold : Option Nat
  /-- Masters on the data line (R7). -/
  masters : Nat
  /-- `NUM_SCAN` (R10). -/
  numScan : Nat
  /-- `SCAN_MAP` as rows; a report that no row names maps to None (R10, log 3). -/
  scanMap : List ScanRow
  deriving DecidableEq, Repr

/-- The abstract host commands (45_dispatcher.md R281). -/
inductive HostCmd where
  | light (on : Bool)
  | motor (dir : BitVec 4) (speed : Byte)
  | bitmap
  | enable
  | cancel
  | lastFault
  deriving DecidableEq, Repr

/-- What the environment does on one tick (93_implementation_defined.md section 2, log 2, log 10). -/
structure TickInput where
  /-- The commands on the host port; more than one is refused (45_dispatcher.md R280). -/
  host : List HostCmd
  /-- The reset input of the master with the scan engine (70_reset_and_hazards.md R350). -/
  resetMaster : Bool
  /-- The slaves whose reset input is asserted (70_reset_and_hazards.md R350, R352). -/
  resetSlaves : List Nat
  /-- The drive of a foreign device on the data line. -/
  extDrv : Bool
  /-- The drive of a tag on each scan line; a line past the end is not driven. -/
  tagDrv : List Bool
  deriving DecidableEq, Repr

/-- A tick on which the environment does nothing. -/
def TickInput.quiet : TickInput :=
  { host := [], resetMaster := false, resetSlaves := [], extDrv := false, tagDrv := [] }

/-- The agent whose completed word is interpreted (log 5). -/
inductive Receiver where
  | master
  | slave (k : Nat)
  deriving DecidableEq, Repr

/-- The answers of the host status port (10_state.md R44; 45_dispatcher.md R287, R288). -/
inductive HostAnswer where
  /-- Eight words, word `k` holding ids 32k to 32k + 31. -/
  | bitmap (words : List Word)
  /-- The code of `last_fault`, 3 bits. -/
  | lastFault (code : BitVec 3)
  deriving DecidableEq, Repr

end Sys2Proof.Machine

namespace Sys2Proof.Machine

/-- The state of the system. -/
structure State where
  /-- The parameters (log 3). -/
  params : Params
  /-- The master engine. -/
  master : Master
  /-- The slave engines, any number (00_scope.md R19). -/
  slaves : List Slave
  /-- The contact-scan engine. -/
  scan : Scan
  /-- The report mailbox. -/
  mailbox : Mailbox
  /-- MODEL: the foreign device's drive of the last tick (log 2). -/
  extDrv : Bool
  /-- MODEL: the tags' drives of the last tick (log 2). -/
  tagDrv : List Bool
  /-- MODEL: the inputs of the ticks to come, the next first; none left means quiet ticks (log 2). -/
  inputs : List TickInput
  /-- MODEL: the agent whose completed word `exec` interprets (log 5). -/
  receiver : Receiver
  /-- MODEL: the answer on the host port on the last tick (log 9). -/
  hostOut : Option HostAnswer
  deriving DecidableEq, Repr

/-- The parameters at reset: the canonical variant, the open ones from Config (log 3). -/
def Params.reset : Params :=
  { checksumOn := true, identLen := 3, threshold := some (Config.thresholdOver + 2), masters := 1,
    numScan := Config.scanLinesOver + 1,
    scanMap := Config.scanRows.map fun r =>
      { line := r.1, ident := r.2.1,
        target := { dev := BitVec.ofNat 8 (r.2.2.1.val + 1), cmd := r.2.2.2.1, arg := r.2.2.2.2.1,
                    ff := r.2.2.2.2.2 } } }

/-- The parameters of the one slave present at reset (log 4). -/
def SlaveCfg.reset : SlaveCfg :=
  { myType := Config.myType, myIdent := ⟨Config.myIdent.1, Config.myIdent.2.1, Config.myIdent.2.2⟩ }

/-- The system right after reset (10_state.md R46, 70_reset_and_hazards.md R350). -/
def State.reset : State :=
  { params := Params.reset, master := Master.reset, slaves := [Slave.reset SlaveCfg.reset],
    scan := Scan.reset Params.reset.numScan, mailbox := Mailbox.reset, extDrv := false, tagDrv := [],
    inputs := [], receiver := .master, hostOut := none }

end Sys2Proof.Machine
end

