-- ==== Sys2Proof/Machine/Result.lean ====
section
/-!
DEFINITION. How operations that may stop are put in sequence: the first that stops ends the whole.
-/

namespace Sys2Proof.Machine

/-- The outcome of an operation that answers a value of type `α`. -/
abbrev Res (α : Type) := Host.Outcome α Fault Refusal

/-- Do `f` with the answer of `o`; a fault or a refusal of `o` is the whole outcome. -/
def andThen {α β : Type} (o : Res α) (f : α → Res β) : Res β :=
  match o with
  | .next a => f a
  | .fault r => .fault r
  | .refused r => .refused r

end Sys2Proof.Machine
end

