-- ==== Sys2Proof/Machine/Framer.lean ====
section
/-!
DEFINITION. The TWPC bit framer (40_framer.md): arming a transmit or a receive, and one tick of each.
A tick also answers whether it is the completing one (R120), on which the owning engine runs its
follow-up.
-/

namespace Sys2Proof.Machine

/-- `arm_tx(w)` (40_framer.md R121); a busy framer refuses (R120). -/
def Framer.armTx (w : Word) (f : Framer) : Res Framer :=
  if f.fmode = .idle then
    .next { f with txWord := w, txPos := 0, fmode := .tx, fdone := false }
  else .refused .armWhileBusy

/-- `arm_rx()` (40_framer.md R130); a busy framer refuses (R120). -/
def Framer.armRx (f : Framer) : Res Framer :=
  if f.fmode = .idle then
    .next { f with rxSub := .seekHi, fails := 0, rxVal := 0, rxPos := 0, fmode := .rx,
                   fdone := false, fstatus := .ok }
  else .refused .armWhileBusy

/-- The level a transmit drives on tick `k` of a frame that carries `w` (40_framer.md R122). -/
def txLevel (w : Word) (k : Nat) : Bool :=
  if k = 0 then true
  else if k = 1 then false
  else if k ≤ 2 * Config.packetBits + 1 then
    if (k - 2) % 2 = 0 then w.getLsbD ((k - 2) / 2) else false
  else false

/-- One transmit tick (40_framer.md R122). A framer that is not transmitting does nothing (log 13). -/
def Framer.txTick (f : Framer) : Framer × Bool :=
  if f.fmode = .tx then
    if f.txPos < 2 * Config.packetBits + 2 then
      ({ f with drv := txLevel f.txWord f.txPos, txPos := f.txPos + 1 }, false)
    else
      ({ f with drv := txLevel f.txWord f.txPos, fmode := .idle, fdone := true, fstatus := .ok }, true)
  else (f, false)

/-- A failed start-bit detection (40_framer.md R131) under a threshold, where there is one: the
receive is aborted when the new count reaches it (R132). -/
def Framer.failedDetection (th : Option Nat) (f : Framer) : Framer × Bool :=
  match th with
  | none => ({ f with fails := f.fails + 1 }, false)
  | some n =>
    if n ≤ f.fails + 1 then
      ({ f with fails := f.fails + 1, fmode := .idle, fdone := true, fstatus := .sync }, true)
    else ({ f with fails := f.fails + 1 }, false)

/-- A data tick with sample `s` (40_framer.md R133): the even ticks take a bit, the odd ones ignore
the line, tick 63 completes. -/
def Framer.dataTick (s : Bool) (f : Framer) : Framer × Bool :=
  let v :=
    if f.rxPos % 2 = 0 then f.rxVal ||| ((BitVec.ofBool s).setWidth 32 <<< (f.rxPos / 2)) else f.rxVal
  if f.rxPos = 2 * Config.packetBits - 1 then
    ({ f with rxVal := v, fmode := .idle, fdone := true, fstatus := .ok }, true)
  else ({ f with rxVal := v, rxPos := f.rxPos + 1 }, false)

/-- One receive tick with sample `s` (40_framer.md R131 to R133). `th` is the master's threshold; a
slave has none (R132). A framer that is not receiving does nothing (log 13). -/
def Framer.rxTick (th : Option Nat) (s : Bool) (f : Framer) : Framer × Bool :=
  if f.fmode = .rx then
    match f.rxSub with
    | .seekHi => if s then ({ f with rxSub := .seekLo }, false) else f.failedDetection th
    | .seekLo => if s then f.failedDetection th else ({ f with rxSub := .data, rxPos := 0 }, false)
    | .data => f.dataTick s
  else (f, false)

end Sys2Proof.Machine
end

