-- ==== Sys2Proof/WellFormed.lean ====
section
/-!
DEFINITION. When an instruction is well formed. The one constraint a term of `Instr` can break is
the range of the unrecognised row: its command byte lies in 0x12..0xFF (30_encoding.md R102). A
checksum that does not match makes no ill-formed term: such a word arrives on the line and every
receiver has a rule for it (41_checksum.md R152, log 6).
-/

namespace Sys2Proof

/-- The opcodes 0x00..0x11 are recognised (30_encoding.md R102). -/
def recognised (cmd : Byte) : Bool := decide (cmd.toNat ≤ 0x11)

/-- Well-formed instructions. -/
def Instr.wf : Instr → Bool
  | .nop .. => true
  | .endOfTurn .. => true
  | .data .. => true
  | .error .. => true
  | .ok .. => true
  | .newDevice .. => true
  | .disconnect .. => true
  | .lightOn .. => true
  | .lightOff .. => true
  | .stop .. => true
  | .motorA .. => true
  | .motorB .. => true
  | .uidByte1 .. => true
  | .uidByte2 .. => true
  | .uidByte3 .. => true
  | .typeQuery .. => true
  | .train .. => true
  | .station .. => true
  | .unrecognised _ cmd _ _ => !recognised cmd
  | .hostLight1 => true
  | .hostLight0 => true
  | .hostMotor .. => true
  | .hostBitmap => true
  | .hostEnable => true
  | .hostCancel => true
  | .hostLastFault => true

end Sys2Proof
end

