-- ==== Sys2Proof/Decode.lean ====
section
/-!
DEFINITION. The encodings of 30_encoding.md, read and written: the fields of a packet word (R91), the
opcode map (R100, R102), the byte order of a packet (20_memory.md R66) and the text of the host commands
(R107, log 8). `decode` is total on any bytes and refuses by name; `encode` is written from the same
tables.
-/

namespace Sys2Proof

/-- Field `uid`, bits 7..0 (30_encoding.md R91). -/
def uidOf (w : Word) : Byte := w.extractLsb' 0 8

/-- Field `cmd`, bits 15..8 (30_encoding.md R91). -/
def cmdOf (w : Word) : Byte := w.extractLsb' 8 8

/-- Field `arg`, bits 23..16 (30_encoding.md R91). -/
def argOf (w : Word) : Byte := w.extractLsb' 16 8

/-- Field `checksum`, bits 31..24 (30_encoding.md R91). -/
def cksOf (w : Word) : Byte := w.extractLsb' 24 8

/-- The word with the four fields at their places, `{cks, arg, cmd, uid}` (30_encoding.md R91). -/
def wordOf (uid cmd arg cks : Byte) : Word := cks ++ arg ++ cmd ++ uid

/-- The opcode map (30_encoding.md R100). -/
def opNop : Byte := 0x00
/-- 0x01 (30_encoding.md R100). -/
def opEndOfTurn : Byte := 0x01
/-- 0x02 (30_encoding.md R100). -/
def opData : Byte := 0x02
/-- 0x03 (30_encoding.md R100). -/
def opError : Byte := 0x03
/-- 0x04 (30_encoding.md R100). -/
def opOk : Byte := 0x04
/-- 0x05 (30_encoding.md R100). -/
def opNewDevice : Byte := 0x05
/-- 0x06 (30_encoding.md R100). -/
def opDisconnect : Byte := 0x06
/-- 0x07 (30_encoding.md R100). -/
def opLightOn : Byte := 0x07
/-- 0x08 (30_encoding.md R100). -/
def opLightOff : Byte := 0x08
/-- 0x09 (30_encoding.md R100). -/
def opStop : Byte := 0x09
/-- 0x0A (30_encoding.md R100). -/
def opMotorA : Byte := 0x0A
/-- 0x0B (30_encoding.md R100). -/
def opMotorB : Byte := 0x0B
/-- 0x0C (30_encoding.md R100). -/
def opUidByte1 : Byte := 0x0C
/-- 0x0D (30_encoding.md R100). -/
def opUidByte2 : Byte := 0x0D
/-- 0x0E (30_encoding.md R100). -/
def opUidByte3 : Byte := 0x0E
/-- 0x0F (30_encoding.md R100). -/
def opTypeQuery : Byte := 0x0F
/-- 0x10 (30_encoding.md R100). -/
def opTrain : Byte := 0x10
/-- 0x11 (30_encoding.md R100). -/
def opStation : Byte := 0x11

/-- The instruction a packet word stands for: the row is chosen by `cmd` alone, 0x00..0x11 by the map
and 0x12..0xFF unrecognised (30_encoding.md R100, R102). Every word is one. -/
def decodeWord (w : Word) : Instr :=
  match (cmdOf w).toNat with
  | 0x00 => .nop (uidOf w) (argOf w) (cksOf w)
  | 0x01 => .endOfTurn (uidOf w) (argOf w) (cksOf w)
  | 0x02 => .data (uidOf w) (argOf w) (cksOf w)
  | 0x03 => .error (uidOf w) (argOf w) (cksOf w)
  | 0x04 => .ok (uidOf w) (argOf w) (cksOf w)
  | 0x05 => .newDevice (uidOf w) (argOf w) (cksOf w)
  | 0x06 => .disconnect (uidOf w) (argOf w) (cksOf w)
  | 0x07 => .lightOn (uidOf w) (argOf w) (cksOf w)
  | 0x08 => .lightOff (uidOf w) (argOf w) (cksOf w)
  | 0x09 => .stop (uidOf w) (argOf w) (cksOf w)
  | 0x0A => .motorA (uidOf w) (argOf w) (cksOf w)
  | 0x0B => .motorB (uidOf w) (argOf w) (cksOf w)
  | 0x0C => .uidByte1 (uidOf w) (argOf w) (cksOf w)
  | 0x0D => .uidByte2 (uidOf w) (argOf w) (cksOf w)
  | 0x0E => .uidByte3 (uidOf w) (argOf w) (cksOf w)
  | 0x0F => .typeQuery (uidOf w) (argOf w) (cksOf w)
  | 0x10 => .train (uidOf w) (argOf w) (cksOf w)
  | 0x11 => .station (uidOf w) (argOf w) (cksOf w)
  | _ => .unrecognised (uidOf w) (cmdOf w) (argOf w) (cksOf w)

/-- Why `decode` refuses a string of bytes. -/
inductive DecodeError where
  /-- A packet is four bytes, always (30_encoding.md R99). -/
  | packetLength
  /-- No host command starts with this character, or it carries too many or too few characters
  (45_dispatcher.md R281). -/
  | hostCommand
  /-- An argument of `m` is no hex digit (30_encoding.md R107). -/
  | hexDigit
  deriving DecidableEq, Repr

/-- The value of a hex digit character (log 8: both cases are read). -/
def hexValue (c : Byte) : Option (BitVec 4) :=
  if 0x30 ≤ c.toNat ∧ c.toNat ≤ 0x39 then some (BitVec.ofNat 4 (c.toNat - 0x30))
  else if 0x41 ≤ c.toNat ∧ c.toNat ≤ 0x46 then some (BitVec.ofNat 4 (c.toNat - 0x37))
  else if 0x61 ≤ c.toNat ∧ c.toNat ≤ 0x66 then some (BitVec.ofNat 4 (c.toNat - 0x57))
  else none

/-- The character of a hex digit (log 8: capital letters are written). -/
def hexChar (d : BitVec 4) : Byte :=
  if d.toNat < 10 then BitVec.ofNat 8 (0x30 + d.toNat) else BitVec.ofNat 8 (0x37 + d.toNat)

/-- A packet off the line: four bytes, the first field of the record in the first byte
(20_memory.md R66). -/
def decodePacket : List Byte → Except DecodeError Instr
  | [b0, b1, b2, b3] => .ok (decodeWord (wordOf b0 b1 b2 b3))
  | _ => .error .packetLength

/-- The arguments of `m`: one hex digit of direction, two of speed, the high digit first
(45_dispatcher.md R281, log 8). -/
def decodeMotor : List Byte → Except DecodeError Instr
  | [d, h, l] =>
    match hexValue d, hexValue h, hexValue l with
    | some dir, some hi, some lo => .ok (.hostMotor dir (hi ++ lo))
    | _, _, _ => .error .hexDigit
  | _ => .error .hostCommand

/-- A host command in the source's characters (30_encoding.md R107). -/
def decodeHost : List Byte → Except DecodeError Instr
  | [] => .error .hostCommand
  | c :: rest =>
    match c.toNat, rest with
    | 0x31, [] => .ok .hostLight1
    | 0x30, [] => .ok .hostLight0
    | 0x67, [] => .ok .hostBitmap
    | 0x63, [] => .ok .hostEnable
    | 0x72, [] => .ok .hostCancel
    | 0x6C, [] => .ok .hostLastFault
    | 0x6D, args => decodeMotor args
    | _, _ => .error .hostCommand

/-- The instruction some bytes of a source stand for. -/
def decode : Source → List Byte → Except DecodeError Instr
  | .line, bs => decodePacket bs
  | .host, bs => decodeHost bs

/-- The command byte of a packet instruction (30_encoding.md R100); a host command has none and
reads 0. -/
def Instr.cmd : Instr → Byte
  | .nop .. => opNop
  | .endOfTurn .. => opEndOfTurn
  | .data .. => opData
  | .error .. => opError
  | .ok .. => opOk
  | .newDevice .. => opNewDevice
  | .disconnect .. => opDisconnect
  | .lightOn .. => opLightOn
  | .lightOff .. => opLightOff
  | .stop .. => opStop
  | .motorA .. => opMotorA
  | .motorB .. => opMotorB
  | .uidByte1 .. => opUidByte1
  | .uidByte2 .. => opUidByte2
  | .uidByte3 .. => opUidByte3
  | .typeQuery .. => opTypeQuery
  | .train .. => opTrain
  | .station .. => opStation
  | .unrecognised _ cmd _ _ => cmd
  | .hostLight1 => 0
  | .hostLight0 => 0
  | .hostMotor .. => 0
  | .hostBitmap => 0
  | .hostEnable => 0
  | .hostCancel => 0
  | .hostLastFault => 0

/-- The four bytes of a packet in the order of its record (20_memory.md R66). -/
def packetBytes (uid cmd arg cks : Byte) : List Byte := [uid, cmd, arg, cks]

/-- The bytes of an instruction: four for a packet, the characters for a host command. -/
def encode : Instr → List Byte
  | .nop uid arg cks => packetBytes uid opNop arg cks
  | .endOfTurn uid arg cks => packetBytes uid opEndOfTurn arg cks
  | .data uid arg cks => packetBytes uid opData arg cks
  | .error uid arg cks => packetBytes uid opError arg cks
  | .ok uid arg cks => packetBytes uid opOk arg cks
  | .newDevice uid arg cks => packetBytes uid opNewDevice arg cks
  | .disconnect uid arg cks => packetBytes uid opDisconnect arg cks
  | .lightOn uid arg cks => packetBytes uid opLightOn arg cks
  | .lightOff uid arg cks => packetBytes uid opLightOff arg cks
  | .stop uid arg cks => packetBytes uid opStop arg cks
  | .motorA uid arg cks => packetBytes uid opMotorA arg cks
  | .motorB uid arg cks => packetBytes uid opMotorB arg cks
  | .uidByte1 uid arg cks => packetBytes uid opUidByte1 arg cks
  | .uidByte2 uid arg cks => packetBytes uid opUidByte2 arg cks
  | .uidByte3 uid arg cks => packetBytes uid opUidByte3 arg cks
  | .typeQuery uid arg cks => packetBytes uid opTypeQuery arg cks
  | .train uid arg cks => packetBytes uid opTrain arg cks
  | .station uid arg cks => packetBytes uid opStation arg cks
  | .unrecognised uid cmd arg cks => packetBytes uid cmd arg cks
  | .hostLight1 => [0x31]
  | .hostLight0 => [0x30]
  | .hostMotor dir speed =>
    [0x6D, hexChar dir, hexChar (speed.extractLsb' 4 4), hexChar (speed.extractLsb' 0 4)]
  | .hostBitmap => [0x67]
  | .hostEnable => [0x63]
  | .hostCancel => [0x72]
  | .hostLastFault => [0x6C]

/-- The word of a packet's four bytes; anything else is no packet and reads 0. -/
def wordOfBytes : List Byte → Word
  | [b0, b1, b2, b3] => wordOf b0 b1 b2 b3
  | _ => 0

/-- The packet word of an instruction (30_encoding.md R91); a host command has none and reads 0. -/
def Instr.word (i : Instr) : Word := wordOfBytes (encode i)

/-- The first `n` bytes of a number, the least significant first. -/
def bytesOf : Nat → Nat → List Byte
  | 0, _ => []
  | n + 1, w => BitVec.ofNat 8 w :: bytesOf n (w / 256)

/-- The word that `nbits` bits of the table stand for: the bits above `nbits` are 0, up to the 32 of a
packet (30_encoding.md R99). -/
def tableWord (nbits w : Nat) : Word := BitVec.ofNat 32 (w % 2 ^ nbits)

/-- The instruction the decoder reads from a row's bits `w`, laid out as the record's four bytes. The
table gives bits to packet rows only. -/
def decodeTableWord (nbits w : Nat) : Option Instr :=
  match decode .line (bytesOf 4 (tableWord nbits w).toNat) with
  | .ok i => some i
  | .error _ => none

end Sys2Proof
end

