-- ==== Sys2Proof/Machine/Flags.lean ====
section
/-!
DEFINITION. The flags the spec computes: the packet checksum and validity (41_checksum.md), the code
of `last_fault` (60_exceptions.md R311) and the connected-device bitmap (10_state.md R44).
-/

namespace Sys2Proof.Machine

/-- `cks(uid, cmd, arg) = ~(uid ^ cmd ^ arg)` (41_checksum.md R150). -/
def cks (uid cmd arg : Byte) : Byte := ~~~(uid ^^^ cmd ^^^ arg)

/-- The checksum byte matches the other three fields (41_checksum.md R151). -/
def fieldsValid (uid cmd arg c : Byte) : Bool := decide (c = cks uid cmd arg)

/-- `valid(w)` (41_checksum.md R151). -/
def wordValid (w : Word) : Bool := fieldsValid (uidOf w) (cmdOf w) (argOf w) (cksOf w)

/-- The value of `last_fault` the host reads (60_exceptions.md R311). -/
def FaultCode.code : FaultCode → BitVec 3
  | .none => 0
  | .sync => 1
  | .protocol => 2
  | .checksum => 3
  | .disconnect => 4

/-- An entry is connected when `kind != Disconnected` (10_state.md R33). -/
def Entry.connected (e : Entry) : Bool := decide (e.kind ≠ .disconnected)

/-- The number whose bits, the least significant first, are those of the list. -/
def bitsToNat : List Bool → Nat
  | [] => 0
  | b :: bs => (if b then 1 else 0) + 2 * bitsToNat bs

/-- `bitmap`: bit `i` is 1 exactly when entry `i` exists and is connected (10_state.md R44). -/
def Master.bitmap (m : Master) : BitVec 256 :=
  BitVec.ofNat 256 (bitsToNat (false :: (m.tab.take 254).map Entry.connected))

/-- Word `k` of the bitmap, `bitmap[32k+31 : 32k]` (10_state.md R44). -/
def Master.bitmapWord (m : Master) (k : Nat) : Word := m.bitmap.extractLsb' (32 * k) 32

/-- The eight words of the bitmap (45_dispatcher.md R287). -/
def Master.bitmapWords (m : Master) : List Word := (List.range 8).map m.bitmapWord

end Sys2Proof.Machine
end

