-- ==== Sys2Proof/Machine/Operands.lean ====
section
/-!
DEFINITION. The operand forms of a packet: how a slave reads the `uid` field (43_slave.md R215, R216),
and the packets the engines build (41_checksum.md R150; 30_encoding.md R108).
-/

namespace Sys2Proof.Machine

/-- `pack(uid, cmd, arg)` (41_checksum.md R150). -/
def pack (uid cmd arg : Byte) : Word := wordOf uid cmd arg (cks uid cmd arg)

/-- The ids 1..254 are assignable (20_memory.md R68, 43_slave.md R215). -/
def assignable (uid : Byte) : Bool := decide (1 ≤ uid.toNat ∧ uid.toNat ≤ Config.maxId)

/-- How a packet's `uid` reads to a slave with a given id (43_slave.md R216). -/
inductive Addressing where
  | addressed
  | broadcast
  | foreign
  deriving DecidableEq, Repr

/-- The addressing of a packet (43_slave.md R216, R218: the own id is looked at first). -/
def addressing (uid ownId : Byte) : Addressing :=
  if uid = ownId then .addressed
  else if uid = Config.bcastId then .broadcast
  else .foreign

/-- `announce` and `marker`, one word (30_encoding.md R108). -/
def announceWord : Word := pack Config.bcastId opNewDevice 0

/-- `assign(i)` (30_encoding.md R108). -/
def assignWord (i : Byte) : Word := pack i opTypeQuery 0

/-- The low byte of an entry's argument, the only one transmitted (10_state.md R33). -/
def Entry.argByte (e : Entry) : Byte := e.arg.extractLsb' 0 8

/-- The command of a poll: the pending one, else `NOP` (30_encoding.md R108, 42_master.md R177). -/
def Entry.pollCmd (e : Entry) : Byte := if e.pendValid then e.pendCmd else opNop

/-- `poll(i)` (30_encoding.md R108). -/
def pollWord (i : Byte) (e : Entry) : Word := pack i e.pollCmd e.argByte

/-- `bcast(c, a)` (30_encoding.md R108). -/
def bcastWord (c a : Byte) : Word := pack Config.bcastId c a

/-- `reply(i, d)` (30_encoding.md R108). -/
def replyWord (i d : Byte) : Word := pack i d opEndOfTurn

end Sys2Proof.Machine
end

