-- ==== Sys2Proof/Machine/Table.lean ====
section
/-!
DEFINITION. The device table: reading and writing the entry of an id, and the three derived functions
of 10_state.md R48. Ids 0 and 255 have no entry (10_state.md R33).
-/

namespace Sys2Proof.Machine

/-- `tab[i]`, none where the entry does not exist (10_state.md R33). -/
def tabEntry (t : List Entry) (i : Byte) : Option Entry :=
  if 1 ≤ i.toNat ∧ i.toNat ≤ Config.maxId then t[i.toNat - 1]? else none

/-- The table with `tab[i] <- e`; unchanged where the entry does not exist. -/
def setTabEntry (t : List Entry) (i : Byte) (e : Entry) : List Entry :=
  if 1 ≤ i.toNat ∧ i.toNat ≤ Config.maxId then t.set (i.toNat - 1) e else t

/-- Entry `i` exists and is connected. -/
def connectedAt (t : List Entry) (i : Byte) : Bool :=
  match tabEntry t i with
  | some e => e.connected
  | none => false

/-- `connected_count` (10_state.md R48). -/
def connectedCount (t : List Entry) : Nat := t.countP Entry.connected

/-- `lowest_free` (10_state.md R48). -/
def lowestFree (t : List Entry) : Option Byte :=
  (t.findIdx? fun e => !e.connected).map fun j => BitVec.ofNat 8 (j + 1)

/-- The `k`-th id after `c` in the cyclic order of the ids 1..254 (10_state.md R48). -/
def cyclicId (c : Byte) (k : Nat) : Byte := BitVec.ofNat 8 ((c.toNat + k) % Config.maxId + 1)

/-- `next_conn(c)`: the first connected id in the order c+1, ..., 254, 1, ..., c (10_state.md R48). -/
def nextConn (t : List Entry) (c : Byte) : Option Byte :=
  ((List.range Config.maxId).map (cyclicId c)).find? (connectedAt t)

end Sys2Proof.Machine
end

