-- ==== Sys2Proof/Machine/Ops.lean ====
section
/-!
DEFINITION. The shared operations over the state: named updates, the line levels (20_memory.md R61,
R62), the engines' use of the framer, the check of the parameters (93_implementation_defined.md
section 3), and the one place where a fault is taken (`raiseFault`, 60_exceptions.md R318) beside the
state that follows it (`afterReply`, 42_master.md R194, 60_exceptions.md R319).
-/

namespace Sys2Proof.Machine

/-- The state with another master. -/
def State.setMaster (s : State) (m : Master) : State := { s with master := m }

/-- The state with another slave `k`. -/
def State.setSlave (s : State) (k : Nat) (v : Slave) : State :=
  { s with slaves := s.slaves.set k v }

/-- The state with other scan registers. -/
def State.setScan (s : State) (c : Scan) : State := { s with scan := c }

/-- The state with another mailbox. -/
def State.setMailbox (s : State) (b : Mailbox) : State := { s with mailbox := b }

/-- The state with an answer on the host port. -/
def State.setHostOut (s : State) (a : Option HostAnswer) : State := { s with hostOut := a }

/-- The state in which the word of `r` is interpreted. -/
def State.setReceiver (s : State) (r : Receiver) : State := { s with receiver := r }

/-- `drv <- b` in the master (10_state.md R25). -/
def Master.setDrv (m : Master) (b : Bool) : Master := { m with fr := { m.fr with drv := b } }

/-- `drv <- b` in a slave (10_state.md R25). -/
def Slave.setDrv (v : Slave) (b : Bool) : Slave := { v with fr := { v.fr with drv := b } }

/-- What a sample of the data line reads on this tick: the OR of the drives of the last tick
(20_memory.md R61, R62). -/
def State.dataLevel (s : State) : Bool :=
  s.master.fr.drv || s.slaves.any (fun v => v.fr.drv) || s.extDrv

/-- What a sample of scan line `j` reads on this tick (20_memory.md R61, 44_contact_scan.md R260). -/
def State.scanLevel (s : State) (j : Nat) : Bool :=
  s.scan.scDrv.getD j false || s.tagDrv.getD j false

/-- `arm_tx(w)` by the master. -/
def Master.armTx (w : Word) (m : Master) : Res Master :=
  andThen (m.fr.armTx w) fun f => .next { m with fr := f }

/-- `arm_rx()` by the master. -/
def Master.armRx (m : Master) : Res Master :=
  andThen m.fr.armRx fun f => .next { m with fr := f }

/-- `Reply(d)` (43_slave.md R213): the reply packet is armed on this tick. -/
def Slave.reply (d : Byte) (v : Slave) : Res Slave :=
  andThen (v.fr.armTx (replyWord v.ownId d)) fun f => .next { v with fr := f, sph := .tx }

/-- `arm_rx(); sph <- RX` (43_slave.md R212, R213). -/
def Slave.rearm (v : Slave) : Res Slave :=
  andThen v.fr.armRx fun f => .next { v with fr := f, sph := .rx }

/-- `sph <- LISTEN` (43_slave.md R214, R215). -/
def Slave.backToListen (v : Slave) : Res Slave := .next { v with sph := .listen }

/-- What `SCAN_MAP` gives for a report (45_dispatcher.md R290): the first row that names it. -/
def Params.scanTarget (p : Params) (line : Nat) (ident : Byte) : Option ScanTarget :=
  (p.scanMap.find? fun r => decide (r.line = line ∧ r.ident = ident)).map ScanRow.target

/-- The refusal of a configuration (93_implementation_defined.md section 3), none for the canonical
variant with parameters in range. -/
def Params.refusal (p : Params) : Option Refusal :=
  if p.checksumOn = false then some .checksumOff
  else if p.identLen ≠ Config.identLen then some .identityLength
  else if p.masters ≠ 1 then some .masterCount
  else if p.numScan < 1 then some .noScanLine
  else
    match p.threshold with
    | none => some .thresholdDisabled
    | some n => if n < 2 then some .thresholdTooSmall else none

/-- `cursor <- next_conn(cursor)`; the cursor stays where nothing is connected (42_master.md R193,
60_exceptions.md R318). -/
def Master.advance (m : Master) : Master :=
  { m with cursor := (nextConn m.tab m.cursor).getD m.cursor }

/-- `raise F(code)`: TAKING A FAULT (60_exceptions.md R318). The polled entry is deleted, the code is
recorded, and the cursor moves to the next connected id, computed after the deletion. -/
def raiseFault (code : FaultCode) (m : Master) : Res Master :=
  match tabEntry m.tab m.cursor with
  | none => .fault .noTableEntry
  | some _ =>
    .next ({ m with tab := setTabEntry m.tab m.cursor Entry.reset, lastFault := code }).advance

/-- `mstate` after a reply that left the table `t` (42_master.md R194). -/
def stateAfterReply (t : List Entry) (session : Bool) : MState :=
  if connectedCount t = 0 then .acceptingConnections
  else if session then .acceptingConnections
  else .polling

/-- The state after a reply, faulted or not (42_master.md R194): there is no return from a fault, the
next operation is chosen from here (60_exceptions.md R319). -/
def Master.afterReply (m : Master) : Master :=
  { m with mstate := stateAfterReply m.tab m.session }

end Sys2Proof.Machine
end

