-- ==== Sys2Proof/Machine/Dispatcher.lean ====
section
/-!
DEFINITION. The mailbox step of the command dispatcher (45_dispatcher.md R290 to R294).
-/

namespace Sys2Proof.Machine

/-- The entry with a report's command pending (45_dispatcher.md R290). -/
def Entry.withReport (t : ScanTarget) (e : Entry) : Entry :=
  { e with pendValid := true, pendCmd := t.cmd, arg := t.arg.setWidth 16,
           stage := if t.ff then .expectAny else e.stage }

/-- The entry takes a report: it is connected and in `ExpectAck` (45_dispatcher.md R290). -/
def Entry.takesReport (e : Entry) : Bool := e.connected && decide (e.stage = .expectAck)

/-- The report with target `t` in the table; a report whose entry does not take it is dropped
(45_dispatcher.md R290). A target outside 1..254 is refused (93_implementation_defined.md section 3). -/
def applyReport (t : ScanTarget) (m : Master) : Res Master :=
  if assignable t.dev = false then .refused .scanMapDevice
  else
    match tabEntry m.tab t.dev with
    | none => .fault .noTableEntry
    | some e =>
      if e.takesReport then .next { m with tab := setTabEntry m.tab t.dev (e.withReport t) }
      else .next m

/-- `dispatch` (45_dispatcher.md R290): a report in the mailbox is consumed, and mapped to a pending
command or dropped. -/
def dispatchMailbox (s : State) : Res State :=
  if s.mailbox.valid then
    let s' := s.setMailbox { s.mailbox with valid := false }
    match s.params.scanTarget s.mailbox.line s.mailbox.ident with
    | none => .next s'
    | some t => andThen (applyReport t s.master) fun m => .next (s'.setMaster m)
  else .next s

end Sys2Proof.Machine
end

