-- ==== Sys2Proof/Machine/Decide.lean ====
section
/-!
DEFINITION. `MasterDecide` (42_master.md R170) and the decision sequence of a decision tick, the
dispatch and then the decision (20_memory.md R75).
-/

namespace Sys2Proof.Machine

/-- The cursor repair before a poll: an id whose entry is not connected gives way to the next connected
one (42_master.md R176). -/
def Master.repairCursor (m : Master) : Master :=
  { m with cursor := if connectedAt m.tab m.cursor then m.cursor
                     else (nextConn m.tab m.cursor).getD m.cursor }

/-- The poll of the cursor's entry (42_master.md R176, R177). -/
def armPoll (m : Master) : Res Master :=
  let m := m.repairCursor
  match tabEntry m.tab m.cursor with
  | none => .fault .noTableEntry
  | some e =>
    andThen (m.armTx (pollWord m.cursor e)) fun m =>
      .next { m with mph := .txPoll, mstate := .awaitingHandshakeReply }

/-- `Polling` with something connected: broadcast, announce or poll (42_master.md R174 to R177). -/
def decidePolling (m : Master) : Res Master :=
  if m.bcValid then
    andThen (m.armTx (bcastWord m.bcCmd m.bcArg)) fun m =>
      .next { m with bcValid := false, mph := .txBcast }
  else if m.enumEn then
    andThen (m.armTx announceWord) fun m => .next { m with mph := .txAnnounce }
  else armPoll m

/-- `AcceptingConnections` with enumeration enabled: a pulse train, or none for want of a free id
(42_master.md R178). -/
def decideInvite (m : Master) : Master :=
  match lowestFree m.tab with
  | none => { m with session := true, capFault := true, mph := .idle }
  | some _ => { m with session := true, capFault := false, mph := .invFirst }

/-- The loop of `MasterDecide` (42_master.md R170) with a bound on its rounds. -/
def decideLoop : Nat → Master → Res Master
  | 0, _ => .fault .decisionLoop
  | n + 1, m =>
    match m.mstate with
    | .acceptingConnections =>
      if m.enumEn then .next (decideInvite m)
      else if m.session then .next { m with mph := .gapMarker, gapCnt := Config.gap, mkCnt := 0 }
      else if 0 < connectedCount m.tab then decideLoop n { m with mstate := .polling }
      else .next { m with mph := .idle }
    | .polling =>
      if connectedCount m.tab = 0 then decideLoop n { m with mstate := .acceptingConnections }
      else decidePolling m
    | .awaitingHandshakeReply => decideLoop n m

/-- `MasterDecide`: the loop runs at most three times (42_master.md R170). -/
def masterDecide (m : Master) : Res Master := decideLoop 3 m

/-- Steps 3 and 4 of a decision tick: dispatch, then `MasterDecide` (20_memory.md R75). -/
def decisionSequence (s : State) : Res State :=
  andThen (dispatchMailbox s) fun s =>
    andThen (masterDecide s.master) fun m => .next (s.setMaster m)

end Sys2Proof.Machine
end

