-- ==== Sys2Proof/Machine/Reply.lean ====
section
/-!
DEFINITION. How the master interprets a reply (42_master.md R185 to R194).
-/

namespace Sys2Proof.Machine

/-- The store of identity byte `j` (42_master.md R188). -/
def Ident.store (x : Ident) (j : Nat) (b : Byte) : Ident :=
  match j with
  | 0 => { x with b0 := b }
  | 1 => { x with b1 := b }
  | _ => { x with b2 := b }

/-- `ExpectType` (42_master.md R187). -/
def expectType (data : Byte) (e : Entry) : Except FaultCode Entry :=
  if data = opTrain then
    .ok { e with kind := .train, stage := .expectIdentityByte0, pendValid := true,
                 pendCmd := opUidByte1 }
  else if data = opStation then
    .ok { e with kind := .station, stage := .expectIdentityByte0, pendValid := true,
                 pendCmd := opUidByte1 }
  else .error .protocol

/-- `ExpectIdentityByte0` and `1`: store byte `j`, ask for the next one (42_master.md R188). -/
def expectIdentity (j : Nat) (nextStage : Stage) (nextCmd : Byte) (data : Byte) (e : Entry) :
    Except FaultCode Entry :=
  .ok { e with identity := e.identity.store j data, stage := nextStage, pendValid := true,
               pendCmd := nextCmd }

/-- `ExpectIdentityByte2`: store the last byte, the entry is ready for normal polling
(42_master.md R188). -/
def expectLastIdentity (data : Byte) (e : Entry) : Except FaultCode Entry :=
  .ok { e with identity := e.identity.store 2 data, stage := .expectAck, pendValid := false }

/-- `ExpectAck` (42_master.md R190). -/
def expectAck (data : Byte) (e : Entry) : Except FaultCode Entry :=
  if data = opOk then .ok { e with pendValid := false } else .error .protocol

/-- `ExpectAny` (42_master.md R191). -/
def expectAny (data : Byte) (e : Entry) : Except FaultCode Entry :=
  if data = opDisconnect then .error .disconnect
  else .ok { e with pendValid := false, stage := .expectAck }

/-- What a data byte does to the polled entry, by its stage, or the fault it raises
(42_master.md R185). -/
def stageRule (data : Byte) (e : Entry) : Except FaultCode Entry :=
  match e.stage with
  | .expectType => expectType data e
  | .expectIdentityByte0 => expectIdentity 0 .expectIdentityByte1 opUidByte2 data e
  | .expectIdentityByte1 => expectIdentity 1 .expectIdentityByte2 opUidByte3 data e
  | .expectIdentityByte2 => expectLastIdentity data e
  | .expectAck => expectAck data e
  | .expectAny => expectAny data e

/-- The end marker: the cursor moves on exactly after `END-OF-TURN` (42_master.md R193). -/
def Master.endTurn (endm : Byte) (m : Master) : Master :=
  { m with cursor := if endm = opEndOfTurn then (nextConn m.tab m.cursor).getD m.cursor
                     else m.cursor }

/-- `HandleReply` for a completed word with fields `uid`, `data`, `endm`, `c` (42_master.md R185). The
checks run in the order of 60_exceptions.md R315. -/
def handleReply (uid data endm c : Byte) (m : Master) : Res Master :=
  match tabEntry m.tab m.cursor with
  | none => .fault .noTableEntry
  | some e =>
    if fieldsValid uid data endm c = false then
      andThen (raiseFault .checksum m) fun m => .next m.afterReply
    else if uid ≠ m.cursor then
      andThen (raiseFault .protocol m) fun m => .next m.afterReply
    else
      match stageRule data e with
      | .error code => andThen (raiseFault code m) fun m => .next m.afterReply
      | .ok e' =>
        .next (({ m with tab := setTabEntry m.tab m.cursor e' } : Master).endTurn endm).afterReply

end Sys2Proof.Machine
end

