-- ==== Sys2Proof/Machine/SlaveEngine.lean ====
section
/-!
DEFINITION. What a slave does with a completed word (43_slave.md R214 to R219). The parts that depend
on the opcode are the fields of a `SlaveRule`, which each opcode's meaning supplies.
-/

namespace Sys2Proof.Machine

/-- What one opcode does in a slave, by the slave's state and the addressing of the packet. -/
structure SlaveRule where
  /-- A valid word while `Unassigned` (43_slave.md R215). -/
  unassigned : Slave → Res Slave
  /-- An addressed packet in `RespondPending` (43_slave.md R217). -/
  pending : Slave → Res Slave
  /-- An addressed packet in `Serving` (43_slave.md R218). -/
  serving : Slave → Res Slave
  /-- A broadcast in `Serving`, before the receiver is armed again (43_slave.md R218). -/
  bcast : Slave → Slave
  /-- A broadcast in `StandingBy`, before the receiver is armed again (43_slave.md R219). -/
  standby : Slave → Slave

/-- A recognised opcode with the effect `execute` on the actuators: acknowledged when addressed, no
effect in `RespondPending` (43_slave.md R217, R218). -/
def commandRule (execute : Slave → Slave) : SlaveRule :=
  { unassigned := Slave.backToListen
    pending := Slave.reply opOk
    serving := fun v => (execute v).reply opOk
    bcast := execute
    standby := id }

/-- A query: the reply carries a byte of the slave, no register changes (43_slave.md R217, R218). -/
def queryRule (answer : Slave → Byte) : SlaveRule :=
  { unassigned := Slave.backToListen
    pending := fun v => v.reply (answer v)
    serving := fun v => v.reply (answer v)
    bcast := id
    standby := id }

/-- `OnPacket` for a word with fields `uid`, `cmd`, `arg`, `c` (43_slave.md R214 to R219). -/
def onPacket (uid cmd arg c : Byte) (r : SlaveRule) (v : Slave) : Res Slave :=
  if fieldsValid uid cmd arg c = false then
    if v.sstate = .unassigned then v.backToListen else v.rearm
  else
    match v.sstate with
    | .unassigned => r.unassigned v
    | .respondPending =>
      match addressing uid v.ownId with
      | .addressed => r.pending v
      | .broadcast => v.rearm
      | .foreign => v.rearm
    | .serving =>
      match addressing uid v.ownId with
      | .addressed => r.serving v
      | .broadcast => (r.bcast v).rearm
      | .foreign => v.rearm
    | .standingBy => if uid = Config.bcastId then (r.standby v).rearm else v.rearm

end Sys2Proof.Machine
end

