-- ==== Sys2Proof/Machine/Receive.lean ====
section
/-!
DEFINITION. A completed word at the agent that received it: a slave treats it as a packet, the master
as the reply to its poll (43_slave.md R213, 42_master.md R185; log 5).
-/

namespace Sys2Proof.Machine

/-- The word with fields `uid`, `cmd`, `arg`, `c` at the receiving agent; `r` is what the opcode does
in a slave. A slave that does not exist receives nothing (log 15). -/
def receive (uid cmd arg c : Byte) (r : SlaveRule) (s : State) : Res State :=
  match s.receiver with
  | .master => andThen (handleReply uid cmd arg c s.master) fun m => .next (s.setMaster m)
  | .slave k =>
    match s.slaves[k]? with
    | none => .next s
    | some v => andThen (onPacket uid cmd arg c r v) fun v => .next (s.setSlave k v)

end Sys2Proof.Machine
end

