-- ==== Sys2Proof/Machine/Actuator.lean ====
section
/-!
DEFINITION. The opcodes that write the actuator registers (43_slave.md R227 to R231).
-/

namespace Sys2Proof.Machine

/-- `light <- b` (43_slave.md R227, R228). -/
def Slave.setLight (b : Bool) (v : Slave) : Slave := { v with light := b }

/-- `motor_dir <- d; motor_speed <- sp` (43_slave.md R229 to R231). -/
def Slave.setMotor (d : MotorDir) (sp : Byte) (v : Slave) : Slave :=
  { v with motorDir := d, motorSpeed := sp }

/-- `LIGHT-ON` (43_slave.md R227). -/
def execLightOn (uid arg c : Byte) (s : State) : Host.Outcome State Fault Refusal :=
  receive uid opLightOn arg c (commandRule (Slave.setLight true)) s

/-- `LIGHT-OFF` (43_slave.md R228). -/
def execLightOff (uid arg c : Byte) (s : State) : Host.Outcome State Fault Refusal :=
  receive uid opLightOff arg c (commandRule (Slave.setLight false)) s

/-- `STOP` (43_slave.md R229); `arg` is ignored. -/
def execStop (uid arg c : Byte) (s : State) : Host.Outcome State Fault Refusal :=
  receive uid opStop arg c (commandRule (Slave.setMotor .stop 0)) s

/-- `MOTOR-A`, forward at speed `arg` (43_slave.md R230). -/
def execMotorA (uid arg c : Byte) (s : State) : Host.Outcome State Fault Refusal :=
  receive uid opMotorA arg c (commandRule (Slave.setMotor .fwd arg)) s

/-- `MOTOR-B`, reverse at speed `arg` (43_slave.md R231). -/
def execMotorB (uid arg c : Byte) (s : State) : Host.Outcome State Fault Refusal :=
  receive uid opMotorB arg c (commandRule (Slave.setMotor .rev arg)) s

end Sys2Proof.Machine
end

