-- ==== Sys2Proof/Machine/HostPort.lean ====
section
/-!
DEFINITION. The host commands (45_dispatcher.md R280 to R288). They act on the master's registers and
on nothing else; the two reads put their answer on the host port (log 9).
-/

namespace Sys2Proof.Machine

/-- The instruction an abstract host command is (45_dispatcher.md R281). -/
def HostCmd.instr : HostCmd → Instr
  | .light true => .hostLight1
  | .light false => .hostLight0
  | .motor dir speed => .hostMotor dir speed
  | .bitmap => .hostBitmap
  | .enable => .hostEnable
  | .cancel => .hostCancel
  | .lastFault => .hostLastFault

/-- The broadcast slot filled, whatever it held (10_state.md R31). -/
def Master.queueBcast (c a : Byte) (m : Master) : Master :=
  { m with bcValid := true, bcCmd := c, bcArg := a }

/-- `HostLight(1)` (45_dispatcher.md R283). -/
def execHostLight1 (s : State) : Host.Outcome State Fault Refusal :=
  .next (s.setMaster (s.master.queueBcast opLightOn 0))

/-- `HostLight(0)` (45_dispatcher.md R283). -/
def execHostLight0 (s : State) : Host.Outcome State Fault Refusal :=
  .next (s.setMaster (s.master.queueBcast opLightOff 0))

/-- `HostMotor(dir, speed)` (45_dispatcher.md R286): directions 2 to 15 are ignored. -/
def execHostMotor (dir : BitVec 4) (speed : Byte) (s : State) : Host.Outcome State Fault Refusal :=
  if dir = 0 then .next (s.setMaster (s.master.queueBcast opMotorA speed))
  else if dir = 1 then .next (s.setMaster (s.master.queueBcast opMotorB speed))
  else .next s

/-- `HostBitmap` (45_dispatcher.md R287): the answer is the bitmap, no register is written. -/
def execHostBitmap (s : State) : Host.Outcome State Fault Refusal :=
  .next (s.setHostOut (some (.bitmap s.master.bitmapWords)))

/-- `HostEnable` (45_dispatcher.md R284). -/
def execHostEnable (s : State) : Host.Outcome State Fault Refusal :=
  .next (s.setMaster { s.master with enumEn := true })

/-- `HostCancel` (45_dispatcher.md R285). -/
def execHostCancel (s : State) : Host.Outcome State Fault Refusal :=
  .next (s.setMaster { s.master with enumEn := false })

/-- `HostLastFault` (45_dispatcher.md R288): the answer is the code, the read does not clear it. -/
def execHostLastFault (s : State) : Host.Outcome State Fault Refusal :=
  .next (s.setHostOut (some (.lastFault s.master.lastFault.code)))

end Sys2Proof.Machine
end

