-- ==== Sys2Proof/Machine/Plain.lean ====
section
/-!
DEFINITION. The opcodes without an effect as a command: `NOP` and the recognised ones treated as it
(30_encoding.md R103), and the unrecognised range. As a reply's data byte each is judged by the stage
of the polled entry (42_master.md R187 to R191), through `receive`.
-/

namespace Sys2Proof.Machine

/-- `NOP` (43_slave.md R220). -/
def execNop (uid arg c : Byte) (s : State) : Host.Outcome State Fault Refusal :=
  receive uid opNop arg c (commandRule id) s

/-- `END-OF-TURN` (43_slave.md R221). -/
def execEndOfTurn (uid arg c : Byte) (s : State) : Host.Outcome State Fault Refusal :=
  receive uid opEndOfTurn arg c (commandRule id) s

/-- `DATA` (43_slave.md R222). -/
def execData (uid arg c : Byte) (s : State) : Host.Outcome State Fault Refusal :=
  receive uid opData arg c (commandRule id) s

/-- `ERROR` (43_slave.md R223). -/
def execError (uid arg c : Byte) (s : State) : Host.Outcome State Fault Refusal :=
  receive uid opError arg c (commandRule id) s

/-- `OK` (43_slave.md R224). -/
def execOk (uid arg c : Byte) (s : State) : Host.Outcome State Fault Refusal :=
  receive uid opOk arg c (commandRule id) s

/-- `DISCONNECT` (43_slave.md R226). -/
def execDisconnect (uid arg c : Byte) (s : State) : Host.Outcome State Fault Refusal :=
  receive uid opDisconnect arg c (commandRule id) s

/-- `TRAIN` (43_slave.md R236). -/
def execTrain (uid arg c : Byte) (s : State) : Host.Outcome State Fault Refusal :=
  receive uid opTrain arg c (commandRule id) s

/-- `STATION` (43_slave.md R237). -/
def execStation (uid arg c : Byte) (s : State) : Host.Outcome State Fault Refusal :=
  receive uid opStation arg c (commandRule id) s

/-- An unrecognised opcode: `ERROR` when addressed, nothing by broadcast (43_slave.md R238). -/
def execUnrecognised (uid cmd arg c : Byte) (s : State) : Host.Outcome State Fault Refusal :=
  receive uid cmd arg c (queryRule fun _ => opError) s

end Sys2Proof.Machine
end

