-- ==== Sys2Proof/Machine/Query.lean ====
section
/-!
DEFINITION. The queries of the handshake (43_slave.md R232 to R235) and the session signal
`NEW-DEVICE` (R225).
-/

namespace Sys2Proof.Machine

/-- `UID-BYTE-1` (43_slave.md R232). -/
def execUidByte1 (uid arg c : Byte) (s : State) : Host.Outcome State Fault Refusal :=
  receive uid opUidByte1 arg c (queryRule fun v => v.cfg.myIdent.b0) s

/-- `UID-BYTE-2` (43_slave.md R233). -/
def execUidByte2 (uid arg c : Byte) (s : State) : Host.Outcome State Fault Refusal :=
  receive uid opUidByte2 arg c (queryRule fun v => v.cfg.myIdent.b1) s

/-- The rule of `UID-BYTE-3`: in `RespondPending` the slave is `Serving` once the reply is sent
(43_slave.md R217, R234). -/
def uidByte3Rule : SlaveRule :=
  { queryRule (fun v => v.cfg.myIdent.b2) with
    pending := fun v => ({ v with afterTx := .serving } : Slave).reply v.cfg.myIdent.b2 }

/-- `UID-BYTE-3` (43_slave.md R234). -/
def execUidByte3 (uid arg c : Byte) (s : State) : Host.Outcome State Fault Refusal :=
  receive uid opUidByte3 arg c uidByte3Rule s

/-- The rule of `TYPE-QUERY`: while `Unassigned` it assigns the id in its `uid` field, when that is an
assignable one (43_slave.md R215, R235). -/
def typeQueryRule (uid : Byte) : SlaveRule :=
  { queryRule (fun v => v.cfg.myType) with
    unassigned := fun v =>
      if assignable uid then
        ({ v with ownId := uid, sstate := .respondPending } : Slave).reply v.cfg.myType
      else v.backToListen }

/-- `TYPE-QUERY` (43_slave.md R235). -/
def execTypeQuery (uid arg c : Byte) (s : State) : Host.Outcome State Fault Refusal :=
  receive uid opTypeQuery arg c (typeQueryRule uid) s

/-- A marker heard in `StandingBy`: the third ends the session for this slave (43_slave.md R219). -/
def Slave.countMarker (v : Slave) : Slave :=
  if v.smk + 1 = Config.markers then { v with sstate := .serving, smk := 0 }
  else { v with smk := v.smk + 1 }

/-- The rule of `NEW-DEVICE` (43_slave.md R217 to R219, R225). -/
def newDeviceRule : SlaveRule :=
  { commandRule id with
    serving := fun v => ({ v with smk := 0, afterTx := .standingBy } : Slave).reply opOk
    bcast := fun v => { v with sstate := .standingBy, smk := 0 }
    standby := Slave.countMarker }

/-- `NEW-DEVICE` (43_slave.md R225). -/
def execNewDevice (uid arg c : Byte) (s : State) : Host.Outcome State Fault Refusal :=
  receive uid opNewDevice arg c newDeviceRule s

end Sys2Proof.Machine
end

