-- ==== Sys2Proof/Machine/Dispatch.lean ====
section
/-!
DEFINITION. The meaning of every instruction, one arm a constructor.
-/

namespace Sys2Proof.Machine

def exec (i : Instr) (s : State) : Host.Outcome State Fault Refusal :=
  match i with
  | .nop uid arg c => Sys2Proof.Machine.execNop uid arg c s
  | .endOfTurn uid arg c => Sys2Proof.Machine.execEndOfTurn uid arg c s
  | .data uid arg c => Sys2Proof.Machine.execData uid arg c s
  | .error uid arg c => Sys2Proof.Machine.execError uid arg c s
  | .ok uid arg c => Sys2Proof.Machine.execOk uid arg c s
  | .newDevice uid arg c => Sys2Proof.Machine.execNewDevice uid arg c s
  | .disconnect uid arg c => Sys2Proof.Machine.execDisconnect uid arg c s
  | .lightOn uid arg c => Sys2Proof.Machine.execLightOn uid arg c s
  | .lightOff uid arg c => Sys2Proof.Machine.execLightOff uid arg c s
  | .stop uid arg c => Sys2Proof.Machine.execStop uid arg c s
  | .motorA uid arg c => Sys2Proof.Machine.execMotorA uid arg c s
  | .motorB uid arg c => Sys2Proof.Machine.execMotorB uid arg c s
  | .uidByte1 uid arg c => Sys2Proof.Machine.execUidByte1 uid arg c s
  | .uidByte2 uid arg c => Sys2Proof.Machine.execUidByte2 uid arg c s
  | .uidByte3 uid arg c => Sys2Proof.Machine.execUidByte3 uid arg c s
  | .typeQuery uid arg c => Sys2Proof.Machine.execTypeQuery uid arg c s
  | .train uid arg c => Sys2Proof.Machine.execTrain uid arg c s
  | .station uid arg c => Sys2Proof.Machine.execStation uid arg c s
  | .unrecognised uid cmd arg c => Sys2Proof.Machine.execUnrecognised uid cmd arg c s
  | .hostLight1 => Sys2Proof.Machine.execHostLight1 s
  | .hostLight0 => Sys2Proof.Machine.execHostLight0 s
  | .hostMotor dir speed => Sys2Proof.Machine.execHostMotor dir speed s
  | .hostBitmap => Sys2Proof.Machine.execHostBitmap s
  | .hostEnable => Sys2Proof.Machine.execHostEnable s
  | .hostCancel => Sys2Proof.Machine.execHostCancel s
  | .hostLastFault => Sys2Proof.Machine.execHostLastFault s

end Sys2Proof.Machine
end

