-- ==== Sys2Proof/Machine/MasterTick.lean ====
section
/-!
DEFINITION. One tick of the master engine, by its phase (42_master.md R161), with the sample of the
data line taken before any drive of the tick (20_memory.md R62).
-/

namespace Sys2Proof.Machine

/-- The state with the master's framer moved on. -/
def State.setMasterFramer (s : State) (f : Framer) : State :=
  s.setMaster { s.master with fr := f }

/-- `mph = INV_FIRST` (42_master.md R180). -/
def invFirstTick (m : Master) : Master := { m.setDrv true with mph := .invB }

/-- `mph = INV_B` (42_master.md R181). -/
def invBTick (m : Master) : Master := { m.setDrv false with mph := .invA }

/-- `mph = INV_A` with sample `s` (42_master.md R182). -/
def invATick (lv : Bool) (s : State) : Res State :=
  if lv then
    .next (s.setMaster { s.master.setDrv false with mph := .gapAssign, gapCnt := Config.gap })
  else if s.master.enumEn = false then decisionSequence (s.setMaster (s.master.setDrv false))
  else
    andThen (dispatchMailbox s) fun s =>
      .next (s.setMaster { s.master.setDrv true with mph := .invB })

/-- The new entry of an id assignment (42_master.md R183). -/
def Entry.assigned : Entry := { Entry.reset with kind := .unspecified }

/-- The id assignment at the end of the gap (42_master.md R183). -/
def assignId (m : Master) : Res Master :=
  match lowestFree m.tab with
  | none => .fault .noFreeId
  | some i =>
    let m := { m with tab := setTabEntry m.tab i Entry.assigned, cursor := i }
    andThen (m.armTx (assignWord i)) fun m =>
      .next { m with mph := .txPoll, mstate := .awaitingHandshakeReply }

/-- `mph = GAP_ASSIGN` (42_master.md R183). -/
def gapAssignTick (m : Master) : Res Master :=
  let m := { m.setDrv false with gapCnt := m.gapCnt - 1 }
  if m.gapCnt = 0 then assignId m else .next m

/-- The start of a marker (42_master.md R184). -/
def armMarker (m : Master) : Res Master :=
  andThen (m.armTx announceWord) fun m => .next { m with mph := .txMarker }

/-- `mph = GAP_MARKER` (42_master.md R184). -/
def gapMarkerTick (m : Master) : Res Master :=
  let m := { m.setDrv false with gapCnt := m.gapCnt - 1 }
  if m.gapCnt = 0 then armMarker m else .next m

/-- The third marker is done: the session is closed (42_master.md R172). -/
def closeSession (m : Master) : Master :=
  { m with session := false, mkCnt := 0,
           mstate := if 0 < connectedCount m.tab then .polling else m.mstate }

/-- The follow-up of a completed transmit, by phase (42_master.md R172). -/
def txFollowUp (s : State) : Res State :=
  match s.master.mph with
  | .txPoll =>
    andThen s.master.armRx fun m => .next (s.setMaster { m with mph := .rxReply })
  | .txBcast => decisionSequence s
  | .txAnnounce =>
    decisionSequence
      (s.setMaster { s.master with mstate := .acceptingConnections, session := true })
  | .txMarker =>
    if s.master.mkCnt + 1 < Config.markers then
      andThen (armMarker { s.master with mkCnt := s.master.mkCnt + 1 }) fun m =>
        .next (s.setMaster m)
    else decisionSequence (s.setMaster (closeSession s.master))
  | .idle => .next s
  | .invFirst => .next s
  | .invB => .next s
  | .invA => .next s
  | .gapAssign => .next s
  | .gapMarker => .next s
  | .rxReply => .next s

/-- A transmit phase: one transmit tick, and on the completing one the follow-up (42_master.md R161). -/
def masterTxTick (s : State) : Res State :=
  let r := s.master.fr.txTick
  let s := s.setMasterFramer r.1
  if r.2 then txFollowUp s else .next s

/-- `HandleReply` of a receive that the threshold aborted (42_master.md R185). -/
def handleSilence (m : Master) : Res Master :=
  andThen (raiseFault .sync m) fun m => .next m.afterReply

/-- `HandleReply` on the completing tick: the SYNC fault, or the received packet executed as a reply
(42_master.md R185; log 5). -/
def completeReply (s : State) : Res State :=
  match s.master.fr.fstatus with
  | .sync => andThen (handleSilence s.master) fun m => .next (s.setMaster m)
  | .ok => exec (decodeWord s.master.fr.rxVal) (s.setReceiver .master)

/-- `mph = RX_REPLY`: one receive tick, and on the completing one the reply, the dispatch and the
decision (42_master.md R161, R172). -/
def masterRxTick (lv : Bool) (s : State) : Res State :=
  let r := s.master.fr.rxTick s.params.threshold lv
  let s := s.setMasterFramer r.1
  if r.2 then andThen (completeReply s) decisionSequence else .next s

/-- One tick of the master on the sample `lv` of the data line (42_master.md R161). -/
def masterTick (lv : Bool) (s : State) : Res State :=
  match s.master.mph with
  | .idle => decisionSequence (s.setMaster (s.master.setDrv false))
  | .invFirst => .next (s.setMaster (invFirstTick s.master))
  | .invB => .next (s.setMaster (invBTick s.master))
  | .invA => invATick lv s
  | .gapAssign => andThen (gapAssignTick s.master) fun m => .next (s.setMaster m)
  | .gapMarker => andThen (gapMarkerTick s.master) fun m => .next (s.setMaster m)
  | .txPoll => masterTxTick s
  | .txBcast => masterTxTick s
  | .txAnnounce => masterTxTick s
  | .txMarker => masterTxTick s
  | .rxReply => masterRxTick lv s

end Sys2Proof.Machine
end

