-- ==== Sys2Proof/Machine/ScanTick.lean ====
section
/-!
DEFINITION. The contact-scan engine (44_contact_scan.md R262 to R268).
-/

namespace Sys2Proof.Machine

/-- `Finish`: the next line, a new cycle (44_contact_scan.md R263). -/
def Scan.finish (n : Nat) (c : Scan) : Scan := { c with scIdx := (c.scIdx + 1) % n, scPh := .pulse }

/-- `Report(i, v)`: a new identifier is cached and put in the mailbox, a repeated one suppressed
(44_contact_scan.md R268). -/
def report (c : Scan) (b : Mailbox) : Scan × Mailbox :=
  if c.scVal ≠ c.cache.getD c.scIdx 0 then
    ({ c with cache := c.cache.set c.scIdx c.scVal },
     { valid := true, line := c.scIdx, ident := c.scVal })
  else (c, b)

/-- A `BIT` tick with sample `s` (44_contact_scan.md R262). -/
def Scan.takeBit (s : Bool) (c : Scan) : Scan :=
  { c with scVal := c.scVal ||| ((BitVec.ofBool s).setWidth 8 <<< c.scK), scK := c.scK + 1,
           scPh := if c.scK + 1 = Config.scanBits then .check else .bit }

/-- One tick of the scan engine on `n` lines, with the sample `s` of the selected line
(44_contact_scan.md R262). -/
def scanTick (n : Nat) (s : Bool) (c : Scan) (b : Mailbox) : Scan × Mailbox :=
  let c := { c with scDrv := c.scDrv.map fun _ => false }
  match c.scPh with
  | .pulse => ({ c with scDrv := c.scDrv.set c.scIdx true, scPh := .rel }, b)
  | .rel => ({ c with scPh := .probe }, b)
  | .probe => if s then ({ c with scPh := .bit, scK := 0, scVal := 0 }, b) else (c.finish n, b)
  | .bit => (c.takeBit s, b)
  | .check =>
    if s = Config.scanCheckValid then
      let r := report c b
      (r.1.finish n, r.2)
    else (c.finish n, b)

end Sys2Proof.Machine
end

