-- ==== Sys2Proof/Machine/SlaveTick.lean ====
section
/-!
DEFINITION. One tick of a slave engine, by its phase (43_slave.md R210), with the sample of the data
line taken before any drive of the tick (20_memory.md R62).
-/

namespace Sys2Proof.Machine

/-- `sph = LISTEN` with sample `lv` (43_slave.md R211). -/
def listenTick (lv : Bool) (v : Slave) : Slave :=
  if lv then { v.setDrv true with sph := .presRel } else v.setDrv false

/-- `sph = PRES_REL` (43_slave.md R212). -/
def presRelTick (v : Slave) : Res Slave := (v.setDrv false).rearm

/-- The state a slave enters when its reply is sent (43_slave.md R213). -/
def AfterTx.target (a : AfterTx) (st : SState) : SState :=
  match a with
  | .none => st
  | .serving => .serving
  | .standingBy => .standingBy

/-- `if after_tx != None then sstate <- after_tx; after_tx <- None` (43_slave.md R213). -/
def Slave.settle (v : Slave) : Slave :=
  { v with sstate := v.afterTx.target v.sstate, afterTx := .none }

/-- `sph = TX`: one transmit tick, and on the completing one the follow-up (43_slave.md R213). -/
def slaveTxTick (v : Slave) : Res Slave :=
  let r := v.fr.txTick
  let v := { v with fr := r.1 }
  if r.2 then v.settle.rearm else .next v

/-- `sph = RX` of slave `k`: one receive tick, and on the completing one the packet is executed
(43_slave.md R213). A slave has no fault threshold (40_framer.md R132). -/
def slaveRxTick (lv : Bool) (k : Nat) (v : Slave) (s : State) : Res State :=
  let r := v.fr.rxTick none lv
  let s := s.setSlave k { v with fr := r.1 }
  if r.2 then exec (decodeWord r.1.rxVal) (s.setReceiver (.slave k)) else .next s

/-- One tick of slave `k`, whose registers are `v`, on the sample `lv` (43_slave.md R210). -/
def slaveTick (lv : Bool) (k : Nat) (v : Slave) (s : State) : Res State :=
  match v.sph with
  | .listen => .next (s.setSlave k (listenTick lv v))
  | .presRel => andThen (presRelTick v) fun v => .next (s.setSlave k v)
  | .rx => slaveRxTick lv k v s
  | .tx => andThen (slaveTxTick v) fun v => .next (s.setSlave k v)

end Sys2Proof.Machine
end

