-- ==== Sys2Proof/Machine/Tick.lean ====
section
/-!
DEFINITION. One tick of the whole system (20_memory.md R75): the parameters and the inputs are
checked, the lines are sampled, then the host command, the master, the slaves and the scan engine
move, and the environment's drives are latched (log 1, log 2, log 10). Agents write disjoint state,
so the order among them shows nowhere but in the mailbox, where the scan engine's report wins
(10_state.md R38).
-/

namespace Sys2Proof.Machine

/-- The inputs of this tick; quiet when none are left (log 2). -/
def State.nextInput (s : State) : TickInput := s.inputs.headD TickInput.quiet

/-- The master with the scan engine and the mailbox at their reset values (70_reset_and_hazards.md
R350, log 10). -/
def State.resetMasterAgent (s : State) : State :=
  ((s.setMaster Master.reset).setScan (Scan.reset s.params.numScan)).setMailbox Mailbox.reset

/-- The host command of the tick, if any, executed before the master's step (45_dispatcher.md R282).
-/
def hostStep (inp : TickInput) (s : State) : Res State :=
  match inp.host with
  | [] => .next s
  | [c] => exec c.instr s
  | _ :: _ :: _ => .refused .hostCommands

/-- The master's part of a tick: held in reset it takes no step and a host command leaves no trace in
its registers (70_reset_and_hazards.md R350, log 10). -/
def masterStep (lv : Bool) (inp : TickInput) (s : State) : Res State :=
  if inp.resetMaster then
    andThen (hostStep inp s.resetMasterAgent) fun s => .next s.resetMasterAgent
  else andThen (hostStep inp s) (masterTick lv)

/-- Slave `k`'s part of a tick: held in reset it holds its reset values (70_reset_and_hazards.md
R350, R352). -/
def slaveStep (lv : Bool) (inp : TickInput) (k : Nat) (s : State) : Res State :=
  match s.slaves[k]? with
  | none => .next s
  | some v =>
    if inp.resetSlaves.contains k then .next (s.setSlave k (Slave.reset v.cfg))
    else slaveTick lv k v s

/-- The steps of the slaves `ks`, in that order. -/
def slaveSteps (lv : Bool) (inp : TickInput) : List Nat → State → Res State
  | [], s => .next s
  | k :: ks, s => andThen (slaveStep lv inp k s) (slaveSteps lv inp ks)

/-- The scan engine's part of a tick, on the sample `sl` of the selected line; it is reset with the
master (70_reset_and_hazards.md R350). -/
def scanStep (sl : Bool) (inp : TickInput) (s : State) : State :=
  if inp.resetMaster then s
  else
    let r := scanTick s.params.numScan sl s.scan s.mailbox
    (s.setScan r.1).setMailbox r.2

/-- The end of a tick: the environment's drives are latched and its inputs are used up (log 2). -/
def endTick (inp : TickInput) (s : State) : State :=
  { s with extDrv := inp.extDrv, tagDrv := inp.tagDrv, inputs := s.inputs.tail,
           receiver := .master }

/-- One tick (20_memory.md R75). -/
def tick (s : State) : Host.Outcome State Fault Refusal :=
  match s.params.refusal with
  | some r => .refused r
  | none =>
    andThen (masterStep s.dataLevel s.nextInput (s.setHostOut none)) fun s1 =>
      andThen (slaveSteps s.dataLevel s.nextInput (List.range s.slaves.length) s1) fun s2 =>
        .next (endTick s.nextInput (scanStep (s.scanLevel s.scan.scIdx) s.nextInput s2))

/-- A slave one tick before it has received the word `w` (40_framer.md R133, R134): the tick that
remains is the trailing one, which ignores the line. -/
def Slave.aboutToReceive (w : Word) (v : Slave) : Slave :=
  { v with sph := .rx,
           fr := { v.fr with fmode := .rx, rxSub := .data, rxPos := 2 * Config.packetBits - 1,
                             rxVal := w } }

/-- The inputs with slave `k` out of reset on the next tick. -/
def releaseSlave (k : Nat) : List TickInput → List TickInput
  | [] => []
  | i :: is => { i with resetSlaves := i.resetSlaves.filter (fun j => j != k) } :: is

/-- The word `w` stored where slave 0 takes its next packet from, its receiver (log 14). -/
def State.loadWord (s : State) (w : Word) : State :=
  match s.slaves with
  | [] => s
  | v :: vs => { s with slaves := v.aboutToReceive w :: vs, inputs := releaseSlave 0 s.inputs }

end Sys2Proof.Machine
end

