-- ==== Sys2Proof/Machine/Step.lean ====
section
/-!
DEFINITION. The step of the machine is one tick (00_scope.md R11, R18), and the place a packet is put
for the next step to run it (log 14).
-/

namespace Sys2Proof.Machine

/-- One step: one tick of every agent. -/
def step (s : State) : Host.Outcome State Fault Refusal := Sys2Proof.Machine.tick s

/-- The packet of a table row's bits in slave 0's receiver, one tick from complete (log 14). -/
def State.withFetchWord (s : State) (nbits w : Nat) : State :=
  s.loadWord (Sys2Proof.tableWord nbits w)

end Sys2Proof.Machine
end

