-- ==== Sys2Proof/Machine/Tag.lean ====
section
/-!
DEFINITION. The well-behaved tag of 44_contact_scan.md R261, for statements about what a scan reads.
A tag is environment: the state holds none, and a tick takes any drive on any scan line (log 19).
-/

namespace Sys2Proof.Machine

/-- A tag: its identifier and check bit, and how many ticks of its answer it has driven (0 when idle).
-/
structure Tag where
  ident : Byte
  check : Bool
  sent : Nat
  deriving DecidableEq, Repr

/-- The tag's state and its drive on a tick with sample `s` (44_contact_scan.md R261): presence, eight
identifier bits, the check bit, then idle again. -/
def Tag.tick (s : Bool) (t : Tag) : Tag × Bool :=
  if t.sent = 0 then (if s then ({ t with sent := 1 }, true) else (t, false))
  else if t.sent ≤ 8 then ({ t with sent := t.sent + 1 }, t.ident.getLsbD (t.sent - 1))
  else if t.sent = 9 then ({ t with sent := 10 }, t.check)
  else ({ t with sent := 0 }, false)

/-- One tick of the scan engine with `n` lines and a tag on the selected line, joined by that line:
both sample the OR of the drives of the last tick (20_memory.md R61, R62). The last component is the
tag's drive. -/
def scanWithTag (n : Nat) (x : (Scan × Mailbox) × Tag × Bool) : (Scan × Mailbox) × Tag × Bool :=
  let level := x.1.1.scDrv.getD x.1.1.scIdx false || x.2.2
  (scanTick n level x.1.1 x.1.2, x.2.1.tick level)

end Sys2Proof.Machine
end

