-- ==== Sys2Proof/Safety.lean ====
section
/-!
DEFINITION. The terms claims are stated in: the closed forms of what an agent's registers become, the
two halves of a tick around one slave, two framers on one line, and the invariant of the machine
(which registers and phases go together), which holds at reset and which every step keeps.
-/

namespace Sys2Proof.Machine

/-- Slave `k`, whose registers are `v`, has completed a word that `exec` now interprets. -/
abbrev State.hasReceived (s : State) (k : Nat) (v : Slave) : Prop :=
  s.receiver = .slave k ∧ s.slaves[k]? = some v ∧ v.fr.fmode = .idle

/-- The master, whose polled entry is `e`, has completed a reply that `exec` now interprets. -/
abbrev State.hasReply (s : State) (e : Entry) : Prop :=
  s.receiver = .master ∧ tabEntry s.master.tab s.master.cursor = some e

/-- A framer whose transmit of `w` was armed on this tick (40_framer.md R121). -/
def Framer.sending (w : Word) (f : Framer) : Framer :=
  { f with txWord := w, txPos := 0, fmode := .tx, fdone := false }

/-- A framer whose receive was armed on this tick (40_framer.md R130). -/
def Framer.seeking (f : Framer) : Framer :=
  { f with rxSub := .seekHi, fails := 0, rxVal := 0, rxPos := 0, fmode := .rx, fdone := false,
           fstatus := .ok }

/-- A framer whose receive of `w` has completed on this tick (40_framer.md R133). -/
def Framer.received (w : Word) (f : Framer) : Framer :=
  { f with rxVal := w, fmode := .idle, fdone := true, fstatus := .ok }

/-- A framer with one receive tick left, the trailing one (40_framer.md R133), and the word `w`. -/
abbrev Framer.lastTickOf (f : Framer) (w : Word) : Prop :=
  f.fmode = .rx ∧ f.rxSub = .data ∧ f.rxPos = 63 ∧ f.rxVal = w

/-- The slave after `Reply(d)` (43_slave.md R213). -/
def Slave.replying (d : Byte) (v : Slave) : Slave :=
  { v with sph := .tx, fr := v.fr.sending (pack v.ownId d opEndOfTurn) }

/-- The slave after a packet it does not answer (43_slave.md R213). -/
def Slave.listening (v : Slave) : Slave := { v with sph := .rx, fr := v.fr.seeking }

/-- The master after a fault (60_exceptions.md R318) and the next state after it (42_master.md R194).
-/
def Master.faulted (code : FaultCode) (m : Master) : Master :=
  let t := setTabEntry m.tab m.cursor Entry.reset
  { m with tab := t, lastFault := code, cursor := (nextConn t m.cursor).getD m.cursor,
           mstate := stateAfterReply t m.session }

/-- The master after an accepted reply that makes the polled entry `e` and has end marker `endm`
(42_master.md R193, R194). -/
def Master.accepted (e : Entry) (endm : Byte) (m : Master) : Master :=
  let t := setTabEntry m.tab m.cursor e
  { m with tab := t, mstate := stateAfterReply t m.session,
           cursor := if endm = opEndOfTurn then (nextConn t m.cursor).getD m.cursor else m.cursor }

/-- The master whose framer transmits `w` from this tick on, in phase `p`. -/
def Master.sendingIn (p : MPhase) (w : Word) (m : Master) : Master :=
  { m with fr := m.fr.sending w, mph := p }

/-- `i` is the valid packet `{uid, cmd, arg}` (00_scope.md R15, 41_checksum.md R150): its word is the
packed one. -/
abbrev isPacket (i : Instr) (uid cmd arg : Byte) : Prop :=
  i.source = .line ∧ i.wf = true ∧ i.word = pack uid cmd arg

/-- The data byte a slave answers an addressed command with (43_slave.md R217, R218). -/
def Slave.answer (cmd : Byte) (v : Slave) : Byte :=
  if cmd = opTypeQuery then v.cfg.myType
  else if cmd = opUidByte1 then v.cfg.myIdent.b0
  else if cmd = opUidByte2 then v.cfg.myIdent.b1
  else if cmd = opUidByte3 then v.cfg.myIdent.b2
  else if cmd.toNat ≤ 0x11 then opOk
  else opError

/-- `Execute(cmd, arg)` (43_slave.md R218, R220 to R238): the light and the motor opcodes write the
actuator registers, every other one does nothing. -/
def Slave.executed (cmd arg : Byte) (v : Slave) : Slave :=
  if cmd = opLightOn then { v with light := true }
  else if cmd = opLightOff then { v with light := false }
  else if cmd = opStop then { v with motorDir := .stop, motorSpeed := 0 }
  else if cmd = opMotorA then { v with motorDir := .fwd, motorSpeed := arg }
  else if cmd = opMotorB then { v with motorDir := .rev, motorSpeed := arg }
  else v

/-- A framer whose receive was aborted by the fault threshold on this tick (40_framer.md R132). -/
def Framer.aborted (f : Framer) : Framer :=
  { f with fails := f.fails + 1, fmode := .idle, fdone := true, fstatus := .sync }

/-- The transmitter `n` ticks later (40_framer.md R122). -/
def Framer.afterTxTicks (n : Nat) (f : Framer) : Framer := (fun g => g.txTick.1)^[n] f

/-- The cursor after `n` advances over the table `t` (42_master.md R193). -/
def cursorAfter (t : List Entry) (n : Nat) (c : Byte) : Byte := (fun d => (nextConn t d).getD d)^[n] c

/-- The part of a tick before slave `k` moves: the host command, the master, the slaves below `k`. -/
def State.beforeSlave (s : State) (k : Nat) : Res State :=
  andThen (masterStep s.dataLevel s.nextInput (s.setHostOut none)) fun s1 =>
    slaveSteps s.dataLevel s.nextInput (List.range k) s1

/-- The part of the tick of `s` after slave `k` has moved and left `s1`: the slaves above `k`, the scan
engine, the end of the tick. -/
def State.afterSlave (s : State) (k : Nat) (s1 : State) : Res State :=
  andThen
    (slaveSteps s.dataLevel s.nextInput (List.range' (k + 1) (s.slaves.length - (k + 1))) s1)
    fun s2 => .next (endTick s.nextInput (scanStep (s.scanLevel s.scan.scIdx) s.nextInput s2))

/-- The part of the tick of `s` after the master has moved and left `s1`. -/
def State.afterMaster (s : State) (s1 : State) : Res State :=
  andThen (slaveSteps s.dataLevel s.nextInput (List.range s.slaves.length) s1)
    fun s2 => .next (endTick s.nextInput (scanStep (s.scanLevel s.scan.scIdx) s.nextInput s2))

/-- One tick of a transmitter and a receiver alone on a line: the receiver, with threshold `th`,
samples the drives of the last tick (20_memory.md R61, R62). -/
def linkTick (th : Option Nat) (x : Framer × Framer) : Framer × Framer :=
  (x.1.txTick.1, (x.2.rxTick th (x.1.drv || x.2.drv)).1)

/-- The transmitter and the receiver on one line `n` ticks later. -/
def linkRun (th : Option Nat) (n : Nat) (x : Framer × Framer) : Framer × Framer := (linkTick th)^[n] x

/-- A receiver with threshold `th` after the samples of a list. -/
def rxRun (th : Option Nat) : List Bool → Framer → Framer
  | [], f => f
  | b :: bs, f => rxRun th bs (f.rxTick th b).1

/-- A framer: the ranges of 10_state.md R22 and R23, what it drives in each mode, the bits not yet
sampled are 0, and no completion is pending while an operation runs (R24). -/
abbrev Framer.Inv (f : Framer) : Prop :=
  f.txPos ≤ 66 ∧ f.rxPos ≤ 63 ∧
  (f.fmode = .tx → f.drv = (if f.txPos = 0 then false else txLevel f.txWord (f.txPos - 1))) ∧
  (f.fmode = .rx → f.drv = false) ∧
  (f.fmode = .rx → f.rxSub ≠ .data → f.rxVal = 0) ∧
  (f.fmode = .rx → f.rxSub = .data → f.rxVal.toNat < 2 ^ ((f.rxPos + 1) / 2)) ∧
  (f.fmode ≠ .idle → f.fdone = false)

/-- The framer mode of each phase of the master (42_master.md R161). -/
def MPhase.fmode : MPhase → FMode
  | .idle => .idle
  | .invFirst => .idle
  | .invB => .idle
  | .invA => .idle
  | .gapAssign => .idle
  | .gapMarker => .idle
  | .txPoll => .tx
  | .txBcast => .tx
  | .txAnnounce => .tx
  | .txMarker => .tx
  | .rxReply => .rx

/-- The state the master is in during each phase (42_master.md R170 to R184). -/
def MPhase.mstate : MPhase → MState
  | .idle => .acceptingConnections
  | .invFirst => .acceptingConnections
  | .invB => .acceptingConnections
  | .invA => .acceptingConnections
  | .gapAssign => .acceptingConnections
  | .gapMarker => .acceptingConnections
  | .txPoll => .awaitingHandshakeReply
  | .txBcast => .polling
  | .txAnnounce => .polling
  | .txMarker => .acceptingConnections
  | .rxReply => .awaitingHandshakeReply

/-- The phases of an enumeration that still needs a free id (42_master.md R180 to R183). -/
def MPhase.inviting : MPhase → Bool
  | .invFirst => true
  | .invB => true
  | .invA => true
  | .gapAssign => true
  | .idle => false
  | .gapMarker => false
  | .txPoll => false
  | .txBcast => false
  | .txAnnounce => false
  | .txMarker => false
  | .rxReply => false

/-- An entry of the table (10_state.md R33, 42_master.md R183 to R191): the high byte of `arg` is 0, a
disconnected entry is cleared, an entry is unspecified exactly while its type is awaited, and the
pending command of an identity stage asks for that byte. -/
abbrev Entry.Inv (e : Entry) : Prop :=
  e.arg.toNat < 256 ∧
  (e.kind = .disconnected → e = Entry.reset) ∧
  (e.kind = .unspecified → e = Entry.assigned) ∧
  (e.stage = .expectType → e.kind = .disconnected ∨ e.kind = .unspecified) ∧
  (e.stage = .expectIdentityByte0 → e.pendValid = true ∧ e.pendCmd = opUidByte1) ∧
  (e.stage = .expectIdentityByte1 → e.pendValid = true ∧ e.pendCmd = opUidByte2) ∧
  (e.stage = .expectIdentityByte2 → e.pendValid = true ∧ e.pendCmd = opUidByte3) ∧
  (e.stage = .expectAny → e.pendValid = true)

/-- The device table: 254 entries, each as `Entry.Inv` says (10_state.md R33). -/
abbrev TableInv (t : List Entry) : Prop := t.length = 254 ∧ ∀ e ∈ t, e.Inv

/-- The cursor (10_state.md R28): an id, and that of a connected entry while any is connected. -/
abbrev Master.CursorInv (m : Master) : Prop :=
  assignable m.cursor = true ∧ (connectedCount m.tab ≠ 0 → connectedAt m.tab m.cursor = true)

/-- The polled entry is connected; during a session it is one whose type is awaited
(42_master.md R194). -/
abbrev Master.PollInv (m : Master) : Prop :=
  (m.mph = .txPoll ∨ m.mph = .rxReply) →
    connectedAt m.tab m.cursor = true ∧
    (m.session = true → tabEntry m.tab m.cursor = some Entry.assigned)

/-- The drive of the master outside frames: 1 exactly in the interval after a pulse
(42_master.md R180 to R184). -/
abbrev Master.DriveInv (m : Master) : Prop :=
  m.mph.fmode = .idle → m.fr.drv = decide (m.mph = .invB)

/-- The counters of the master (10_state.md R29). -/
abbrev Master.CountInv (m : Master) : Prop :=
  m.gapCnt ≤ 66 ∧ (m.mph = .gapAssign ∨ m.mph = .gapMarker → 1 ≤ m.gapCnt) ∧ m.mkCnt ≤ 2 ∧
  (m.mph ≠ .txMarker → m.mkCnt = 0)

/-- The session bit: open while the master invites, pauses or sends markers, closed in `Polling`
(00_scope.md R17, 42_master.md R194). -/
abbrev Master.SessionInv (m : Master) : Prop :=
  (m.mph.inviting = true ∨ m.mph = .gapMarker ∨ m.mph = .txMarker → m.session = true) ∧
  (m.mph.inviting = true → (lowestFree m.tab).isSome = true) ∧
  (m.mstate = .polling → m.session = false)

/-- The master with fault threshold `n`. -/
abbrev Master.Inv (n : Nat) (m : Master) : Prop :=
  m.fr.Inv ∧ m.fr.fmode = m.mph.fmode ∧ m.mstate = m.mph.mstate ∧ m.pwrDrv = true ∧
  (m.fr.fmode = .rx → m.fr.fails < n) ∧ TableInv m.tab ∧ m.CursorInv ∧ m.PollInv ∧ m.DriveInv ∧
  m.CountInv ∧ m.SessionInv

/-- The framer mode of each phase of a slave (43_slave.md R210). -/
def SPhase.fmode : SPhase → FMode
  | .listen => .idle
  | .presRel => .idle
  | .rx => .rx
  | .tx => .tx

/-- A slave: its phases, its id, its marker count, and what it transmits (43_slave.md R210 to R219,
R239). -/
abbrev Slave.Inv (v : Slave) : Prop :=
  v.fr.Inv ∧ v.fr.fmode = v.sph.fmode ∧
  (v.sph.fmode = .idle → v.sstate = .unassigned ∧ v.fr.drv = decide (v.sph = .presRel)) ∧
  (v.sstate = .unassigned → v.ownId = 0) ∧
  (v.sstate ≠ .unassigned → assignable v.ownId = true) ∧
  v.smk ≤ 2 ∧ (v.sstate ≠ .standingBy → v.smk = 0) ∧
  (v.sph = .tx → v.sstate = .respondPending ∨ v.sstate = .serving) ∧
  (v.sph = .tx → v.fr.txWord = pack v.ownId (cmdOf v.fr.txWord) opEndOfTurn) ∧
  (v.afterTx ≠ .none → v.sph = .tx) ∧
  (v.afterTx = .serving → v.sstate = .respondPending) ∧
  (v.afterTx = .standingBy → v.sstate = .serving)

/-- The scan engine on `n` lines (10_state.md R37, 44_contact_scan.md R262, R266). -/
abbrev Scan.Inv (n : Nat) (c : Scan) : Prop :=
  c.scIdx < n ∧ c.cache.length = n ∧ c.scK ≤ 8 ∧
  (c.scPh = .bit → c.scK < 8 ∧ c.scVal.toNat < 2 ^ c.scK) ∧
  (c.scPh = .check → c.scK = 8) ∧
  c.scDrv = (if c.scPh = .rel then (List.replicate n false).set c.scIdx true
             else List.replicate n false)

/-- The parameters are those of 00_scope.md R8 and R10. -/
abbrev Params.Inv (p : Params) : Prop :=
  p.refusal = none ∧ ∀ r ∈ p.scanMap, assignable r.target.dev = true

/-- The invariant of the system. -/
abbrev State.Inv (s : State) : Prop :=
  s.params.Inv ∧ Master.Inv (s.params.threshold.getD 0) s.master ∧ (∀ v ∈ s.slaves, v.Inv) ∧
  Scan.Inv s.params.numScan s.scan ∧ s.mailbox.line < s.params.numScan

/-- The host gives at most one command on the next tick (45_dispatcher.md R280). -/
abbrev State.oneHostCommand (s : State) : Prop := s.nextInput.host.length ≤ 1

end Sys2Proof.Machine
end

