-- ==== Sys2Proof/Certificates/Slice0/Obligations.lean ====
section
/-!
DEFINITION. The statements for the provers. Each docstring names the rules it formalises. "Answers"
means that `exec` or `step` gives a next state; an equation with `.next` gives every field of that
state, so it is the frame of the instruction as well.
-/

open Sys2Proof Sys2Proof.Machine

/-! ### Encoding -/

/-- R90 to R102, R107: every well-formed instruction is read back from its own bytes. -/
def Obligations.DecodeOfEncode : Prop :=
  ∀ i : Instr, i.wf = true → decode i.source (encode i) = .ok i

/-- The four bytes of every word are exactly one packet instruction, which is well formed and whose word
they are (fields and opcodes: R91, R99, R100, R102). That a word with a wrong checksum is an instruction too
is the model's choice (log 6, DEDUCED): R104 calls such a word an illegal encoding, and the model's meaning
of it is the discard or the fault that the spec gives. -/
def Obligations.EveryWordIsOnePacket : Prop :=
  ∀ w : Word, ∃ i : Instr,
    decode .line [uidOf w, cmdOf w, argOf w, cksOf w] = .ok i ∧ i.source = .line ∧ i.wf = true ∧
    i.word = w ∧
    ∀ j : Instr, j.source = .line → j.wf = true → j.word = w → j = i

/-- Packet words written out in the spec (43_slave.md section 4, 95_test_vectors.md 2.6) decode to the
instructions they stand for. The last clause is not of the spec: the character codes of a motor command, and
the high digit of the speed first, are the model's choice (log 8, PRESUMED). -/
def Obligations.SpecWordsDecode : Prop :=
  decodeWord 0xFC000003 = .nop 3 0 0xFC ∧
  decodeWord 0xFB000703 = .lightOn 3 0 0xFB ∧
  decodeWord 0xB3400B07 = .motorB 7 0x40 0xB3 ∧
  decodeWord 0x050005FF = .newDevice 255 0 0x05 ∧
  decodeWord 0xF2000C01 = .uidByte1 1 0 0xF2 ∧
  decodeWord 0xF1000F01 = .typeQuery 1 0 0xF1 ∧
  decodeWord 0xEF011001 = .train 1 1 0xEF ∧
  decodeWord 0xDA002005 = .unrecognised 5 0x20 0 0xDA ∧
  decode .host [0x6D, 0x31, 0x34, 0x30] = .ok (.hostMotor 1 0x40)

/-! ### Checksum -/

/-- R150: the checksum, and the fields of a packed word at their places. -/
def Obligations.PackLayout : Prop :=
  ∀ uid cmd arg : Byte,
    cks uid cmd arg = ~~~(uid ^^^ cmd ^^^ arg) ∧
    uidOf (pack uid cmd arg) = uid ∧ cmdOf (pack uid cmd arg) = cmd ∧
    argOf (pack uid cmd arg) = arg ∧ cksOf (pack uid cmd arg) = cks uid cmd arg ∧
    pack uid cmd arg =
      (cks uid cmd arg).setWidth 32 <<< 24 ||| arg.setWidth 32 <<< 16 ||| cmd.setWidth 32 <<< 8 |||
        uid.setWidth 32

/-- R151: both forms of validity. -/
def Obligations.ValidExactlyWhenXorIsOnes : Prop :=
  ∀ w : Word,
    (wordValid w = true ↔ cksOf w = cks (uidOf w) (cmdOf w) (argOf w)) ∧
    (wordValid w = true ↔ uidOf w ^^^ cmdOf w ^^^ argOf w ^^^ cksOf w = 0xFF)

/-- R153: a single-bit corruption of a valid word is not valid. -/
def Obligations.SingleBitCorruptionDetected : Prop :=
  ∀ (w : Word) (i : Nat), i < 32 → wordValid w = true →
    wordValid (w ^^^ (1#32 <<< i)) = false

/-- R154: a corruption of a valid word goes undetected exactly when every bit position is flipped in an
even number of its bytes. -/
def Obligations.UndetectedCorruptions : Prop :=
  ∀ w e : Word, wordValid w = true →
    (wordValid (w ^^^ e) = true ↔ uidOf e ^^^ cmdOf e ^^^ argOf e ^^^ cksOf e = 0)

/-! ### The framer -/

/-- R120, R121, R130: arming an idle framer, and the refusal of a busy one. -/
def Obligations.ArmingAFramer : Prop :=
  ∀ (f : Framer) (w : Word),
    (f.fmode = .idle →
      f.armTx w = .next { f with txWord := w, txPos := 0, fmode := .tx, fdone := false } ∧
      f.armRx = .next { f with rxSub := .seekHi, fails := 0, rxVal := 0, rxPos := 0, fmode := .rx,
                               fdone := false, fstatus := .ok }) ∧
    (f.fmode ≠ .idle →
      f.armTx w = .refused .armWhileBusy ∧ f.armRx = .refused .armWhileBusy)

/-- R123: the waveform of a frame and its length, whatever the word: `n` ticks after arming the line is
driven exactly on the first tick and on tick `3 + 2i` for each one-bit `i`; the frame is complete on tick
67 and not before. -/
def Obligations.TransmitWaveform : Prop :=
  ∀ (f : Framer) (w : Word) (n : Nat), 1 ≤ n → n ≤ 67 →
    (((f.sending w).afterTxTicks n).drv = true ↔
      n = 1 ∨ ∃ i, i < 32 ∧ w.getLsbD i = true ∧ n = 3 + 2 * i) ∧
    (n < 67 → ((f.sending w).afterTxTicks n).fmode = .tx ∧
      ((f.sending w).afterTxTicks n).fdone = false) ∧
    (n = 67 → ((f.sending w).afterTxTicks n).fmode = .idle ∧
      ((f.sending w).afterTxTicks n).fdone = true ∧
      ((f.sending w).afterTxTicks n).fstatus = .ok)

/-- R131, R132: the fault threshold. A failing seek tick under a threshold it reaches aborts the receive;
a receiver without a threshold never aborts; a receiver in its data field never aborts. -/
def Obligations.FaultThreshold : Prop :=
  (∀ (f : Framer) (n : Nat) (b : Bool), f.fmode = .rx →
    (f.rxSub = .seekHi ∧ b = false ∨ f.rxSub = .seekLo ∧ b = true) →
    (f.rxTick (some n) b).1 =
      if n ≤ f.fails + 1 then f.aborted else { f with fails := f.fails + 1 }) ∧
  (∀ (f : Framer) (bs : List Bool), (rxRun none bs f.seeking).fstatus = .ok) ∧
  (∀ (f : Framer) (th : Option Nat) (bs : List Bool), f.fmode = .rx → f.rxSub = .data →
    f.fstatus = .ok → (rxRun th bs f).fstatus = .ok)

/-- R133: a synchronised receiver takes bit `i` from its sample number `2i`, ignores the odd ones, and
completes on its 64th. -/
def Obligations.DataBitsAreTheEvenSamples : Prop :=
  ∀ (f : Framer) (th : Option Nat) (bs : List Bool), f.fmode = .rx → f.rxSub = .data →
    f.rxPos = 0 → f.rxVal = 0 → f.fdone = false → bs.length = 64 →
    (∀ i, i < 32 → (rxRun th bs f).rxVal.getLsbD i = bs.getD (2 * i) false) ∧
    (rxRun th bs f).fmode = .idle ∧ (rxRun th bs f).fdone = true ∧ (rxRun th bs f).fstatus = .ok ∧
    (∀ n, n < 64 → (rxRun th (bs.take n) f).fmode = .rx ∧ (rxRun th (bs.take n) f).fdone = false)

/-- R135, R136: a transmitter and a receiver alone on a line. Whatever the word, the receiver, still
seeking the first half of a start pair and not about to abort on its one failed detection (R137), holds
the word 67 ticks after the transmit was armed, both ends complete on that tick, and neither before. -/
def Obligations.FrameRoundTrip : Prop :=
  ∀ (w : Word) (th : Option Nat) (f g : Framer),
    f.drv = false → g.drv = false → g.fmode = .rx → g.rxSub = .seekHi → g.rxVal = 0 →
    g.fdone = false → g.fstatus = .ok → (∀ n, th = some n → g.fails + 1 < n) →
    ((linkRun th 67 (f.sending w, g)).1.fmode = .idle ∧
     (linkRun th 67 (f.sending w, g)).1.fdone = true ∧
     (linkRun th 67 (f.sending w, g)).2.fmode = .idle ∧
     (linkRun th 67 (f.sending w, g)).2.fdone = true ∧
     (linkRun th 67 (f.sending w, g)).2.fstatus = .ok ∧
     (linkRun th 67 (f.sending w, g)).2.rxVal = w) ∧
    ∀ k, k < 67 →
      (linkRun th k (f.sending w, g)).1.fmode = .tx ∧ (linkRun th k (f.sending w, g)).2.fmode = .rx

/-- R138: a receive under the threshold `n` ends with SYNC after exactly `n` ticks of a silent line, and
after exactly `n + 1` ticks of a line that is active for ever. -/
def Obligations.ReceiveTimeout : Prop :=
  ∀ (f : Framer) (n : Nat), 1 ≤ n →
    (∀ k, k < n → (rxRun (some n) (List.replicate k false) f.seeking).fmode = .rx) ∧
    (rxRun (some n) (List.replicate n false) f.seeking).fmode = .idle ∧
    (rxRun (some n) (List.replicate n false) f.seeking).fdone = true ∧
    (rxRun (some n) (List.replicate n false) f.seeking).fstatus = .sync ∧
    (∀ k, k < n + 1 → (rxRun (some n) (List.replicate k true) f.seeking).fmode = .rx) ∧
    (rxRun (some n) (List.replicate (n + 1) true) f.seeking).fmode = .idle ∧
    (rxRun (some n) (List.replicate (n + 1) true) f.seeking).fdone = true ∧
    (rxRun (some n) (List.replicate (n + 1) true) f.seeking).fstatus = .sync

/-- R320: whatever the line does, a receive under the threshold `n` has ended after `n + 65` ticks. -/
def Obligations.ReceiveIsBounded : Prop :=
  ∀ (f : Framer) (n : Nat) (bs : List Bool), 1 ≤ n → n + 65 ≤ bs.length →
    (rxRun (some n) bs f.seeking).fmode = .idle ∧ (rxRun (some n) bs f.seeking).fdone = true

/-! ### The slave and the packet instructions -/

/-- R214: an invalid word is dropped: only the framer and the phase change. -/
def Obligations.InvalidWordDropped : Prop :=
  ∀ (s : State) (k : Nat) (v : Slave) (i : Instr), s.hasReceived k v → i.source = .line →
    i.wf = true → wordValid i.word = false →
    exec i s = .next (s.setSlave k
      (if v.sstate = .unassigned then { v with sph := .listen } else v.listening))

/-- R215: an unassigned slave takes the id of a `TYPE-QUERY` with an assignable `uid` and answers with its
type; any other valid packet sends it back to listening. -/
def Obligations.UnassignedSlaveTakesId : Prop :=
  ∀ (s : State) (k : Nat) (v : Slave) (i : Instr) (uid cmd arg : Byte), s.hasReceived k v →
    v.sstate = .unassigned → isPacket i uid cmd arg →
    exec i s = .next (s.setSlave k
      (if cmd = 0x0F ∧ 1 ≤ uid.toNat ∧ uid.toNat ≤ 254 then
        ({ v with ownId := uid, sstate := .respondPending } : Slave).replying v.cfg.myType
       else { v with sph := .listen }))

/-- R217: a slave whose handshake is pending answers every packet addressed to it without any effect on
its actuators, and ignores everything else. -/
def Obligations.RespondPendingSlave : Prop :=
  ∀ (s : State) (k : Nat) (v : Slave) (i : Instr) (uid cmd arg : Byte), s.hasReceived k v →
    v.sstate = .respondPending → isPacket i uid cmd arg →
    exec i s = .next (s.setSlave k
      (if uid = v.ownId then
        ({ v with afterTx := if cmd = 0x0E then .serving else v.afterTx } : Slave).replying
          (v.answer cmd)
       else v.listening))

/-- R218: a serving slave, for every packet instruction, addressed, broadcast and foreign. -/
def Obligations.ServingSlave : Prop :=
  ∀ (s : State) (k : Nat) (v : Slave) (i : Instr) (uid cmd arg : Byte), s.hasReceived k v →
    v.sstate = .serving → isPacket i uid cmd arg →
    exec i s = .next (s.setSlave k
      (if uid = v.ownId then
        (if cmd = 0x05 then ({ v with smk := 0, afterTx := .standingBy } : Slave).replying 0x04
         else (v.executed cmd arg).replying (v.answer cmd))
       else if uid = 255 then
        (if cmd = 0x05 then ({ v with sstate := .standingBy, smk := 0 } : Slave).listening
         else (v.executed cmd arg).listening)
       else v.listening))

/-- R219: a slave that stands by counts the broadcast `NEW-DEVICE` packets, serves again with the third,
and ignores everything else. -/
def Obligations.StandingBySlave : Prop :=
  ∀ (s : State) (k : Nat) (v : Slave) (i : Instr) (uid cmd arg : Byte), s.hasReceived k v →
    v.sstate = .standingBy → isPacket i uid cmd arg →
    exec i s = .next (s.setSlave k
      (if uid = 255 ∧ cmd = 0x05 then
        (if v.smk + 1 = 3 then ({ v with sstate := .serving, smk := 0 } : Slave)
         else { v with smk := v.smk + 1 }).listening
       else v.listening))

/-- R227 to R231: the actuator opcodes in a serving slave: addressed, the write and the reply `OK`;
broadcast, the write and no reply. -/
def Obligations.ActuatorCommands : Prop :=
  ∀ (s : State) (k : Nat) (v : Slave) (arg : Byte), s.hasReceived k v → v.sstate = .serving →
    v.ownId ≠ 255 →
    (exec (.lightOn v.ownId arg (cks v.ownId 0x07 arg)) s =
      .next (s.setSlave k (({ v with light := true } : Slave).replying 0x04))) ∧
    (exec (.lightOn 255 arg (cks 255 0x07 arg)) s =
      .next (s.setSlave k ({ v with light := true } : Slave).listening)) ∧
    (exec (.lightOff v.ownId arg (cks v.ownId 0x08 arg)) s =
      .next (s.setSlave k (({ v with light := false } : Slave).replying 0x04))) ∧
    (exec (.lightOff 255 arg (cks 255 0x08 arg)) s =
      .next (s.setSlave k ({ v with light := false } : Slave).listening)) ∧
    (exec (.stop v.ownId arg (cks v.ownId 0x09 arg)) s =
      .next (s.setSlave k (({ v with motorDir := .stop, motorSpeed := 0 } : Slave).replying 0x04))) ∧
    (exec (.stop 255 arg (cks 255 0x09 arg)) s =
      .next (s.setSlave k ({ v with motorDir := .stop, motorSpeed := 0 } : Slave).listening)) ∧
    (exec (.motorA v.ownId arg (cks v.ownId 0x0A arg)) s =
      .next (s.setSlave k (({ v with motorDir := .fwd, motorSpeed := arg } : Slave).replying 0x04))) ∧
    (exec (.motorA 255 arg (cks 255 0x0A arg)) s =
      .next (s.setSlave k ({ v with motorDir := .fwd, motorSpeed := arg } : Slave).listening)) ∧
    (exec (.motorB v.ownId arg (cks v.ownId 0x0B arg)) s =
      .next (s.setSlave k (({ v with motorDir := .rev, motorSpeed := arg } : Slave).replying 0x04))) ∧
    (exec (.motorB 255 arg (cks 255 0x0B arg)) s =
      .next (s.setSlave k ({ v with motorDir := .rev, motorSpeed := arg } : Slave).listening))

/-- R220 to R226, R232 to R238: the other opcodes in a serving slave, addressed: the reply of each, and
no actuator register written; `NEW-DEVICE` also makes the slave stand by once its reply is sent. -/
def Obligations.OtherCommandsAddressed : Prop :=
  ∀ (s : State) (k : Nat) (v : Slave) (arg cmd : Byte), s.hasReceived k v → v.sstate = .serving →
    (∀ i ∈ [Instr.nop v.ownId arg (cks v.ownId 0x00 arg),
            .endOfTurn v.ownId arg (cks v.ownId 0x01 arg), .data v.ownId arg (cks v.ownId 0x02 arg),
            .error v.ownId arg (cks v.ownId 0x03 arg), .ok v.ownId arg (cks v.ownId 0x04 arg),
            .disconnect v.ownId arg (cks v.ownId 0x06 arg),
            .train v.ownId arg (cks v.ownId 0x10 arg), .station v.ownId arg (cks v.ownId 0x11 arg)],
      exec i s = .next (s.setSlave k (v.replying 0x04))) ∧
    exec (.newDevice v.ownId arg (cks v.ownId 0x05 arg)) s =
      .next (s.setSlave k (({ v with smk := 0, afterTx := .standingBy } : Slave).replying 0x04)) ∧
    exec (.uidByte1 v.ownId arg (cks v.ownId 0x0C arg)) s =
      .next (s.setSlave k (v.replying v.cfg.myIdent.b0)) ∧
    exec (.uidByte2 v.ownId arg (cks v.ownId 0x0D arg)) s =
      .next (s.setSlave k (v.replying v.cfg.myIdent.b1)) ∧
    exec (.uidByte3 v.ownId arg (cks v.ownId 0x0E arg)) s =
      .next (s.setSlave k (v.replying v.cfg.myIdent.b2)) ∧
    exec (.typeQuery v.ownId arg (cks v.ownId 0x0F arg)) s =
      .next (s.setSlave k (v.replying v.cfg.myType)) ∧
    (0x12 ≤ cmd.toNat → exec (.unrecognised v.ownId cmd arg (cks v.ownId cmd arg)) s =
      .next (s.setSlave k (v.replying 0x03)))

/-- R211, R212: a listening slave answers an active sample with one presence tick, releases the line on
the next tick and arms its receiver there. -/
def Obligations.SlavePresence : Prop :=
  ∀ (s : State) (k : Nat) (v : Slave) (lv : Bool),
    (v.sph = .listen → slaveTick lv k v s = .next (s.setSlave k
      (if lv then { v with fr := { v.fr with drv := true }, sph := .presRel }
       else { v with fr := { v.fr with drv := false } }))) ∧
    (v.sph = .presRel → v.fr.fmode = .idle → slaveTick lv k v s =
      .next (s.setSlave k ({ v with fr := { v.fr with drv := false } } : Slave).listening))

/-- R213: the tick that completes a reply: the slave enters the state its reply promised and listens. -/
def Obligations.SlaveReplySent : Prop :=
  ∀ (s : State) (k : Nat) (v : Slave) (lv : Bool), v.sph = .tx → v.fr.fmode = .tx →
    (v.fr.txPos < 66 → slaveTick lv k v s = .next (s.setSlave k
      { v with fr := { v.fr with drv := txLevel v.fr.txWord v.fr.txPos, txPos := v.fr.txPos + 1 } })) ∧
    (v.fr.txPos = 66 → slaveTick lv k v s = .next (s.setSlave k
      ({ v with sstate := (match v.afterTx with
                            | .none => v.sstate
                            | .serving => .serving
                            | .standingBy => .standingBy),
                afterTx := .none, fr := { v.fr with drv := false } } : Slave).listening))

/-! ### The device table and the master's reply handling -/

/-- R48: the three derived functions of the device table. -/
def Obligations.DerivedTableFunctions : Prop :=
  ∀ t : List Entry, t.length = 254 →
    connectedCount t =
      ((List.range 254).filter fun j => connectedAt t (BitVec.ofNat 8 (j + 1))).length ∧
    (∀ i : Byte, lowestFree t = some i ↔
      1 ≤ i.toNat ∧ i.toNat ≤ 254 ∧ connectedAt t i = false ∧
      ∀ j : Byte, 1 ≤ j.toNat → j.toNat < i.toNat → connectedAt t j = true) ∧
    (lowestFree t = none ↔
      ∀ j : Byte, 1 ≤ j.toNat → j.toNat ≤ 254 → connectedAt t j = true) ∧
    ∀ c : Byte, 1 ≤ c.toNat → c.toNat ≤ 254 →
      (∀ i : Byte, nextConn t c = some i ↔
        connectedAt t i = true ∧ ∃ k, k < 254 ∧ i.toNat = (c.toNat + k) % 254 + 1 ∧
          ∀ l, l < k → connectedAt t (BitVec.ofNat 8 ((c.toNat + l) % 254 + 1)) = false) ∧
      (nextConn t c = none ↔ connectedCount t = 0)

/-- R196: from any id, advancing the cursor visits connected ids only, and every connected id within one
round, which has as many advances as there are connected ids. -/
def Obligations.RoundRobin : Prop :=
  ∀ (t : List Entry) (c i : Byte), t.length = 254 → 1 ≤ c.toNat → c.toNat ≤ 254 →
    connectedAt t i = true →
    (∀ n, 1 ≤ n → connectedAt t (cursorAfter t n c) = true) ∧
    ∃ n, 1 ≤ n ∧ n ≤ connectedCount t ∧ cursorAfter t n c = i

/-- R318: the fault action: the polled entry is cleared, every other entry is as before, the code is
recorded, the cursor moves to the next connected id of the new table where there is one, and every other
register of the master is as before. -/
def Obligations.FaultAction : Prop :=
  ∀ (m : Master) (e : Entry) (code : FaultCode), tabEntry m.tab m.cursor = some e →
    ∃ m', raiseFault code m = .next m' ∧
      tabEntry m'.tab m.cursor = some Entry.reset ∧
      (∀ i : Byte, i ≠ m.cursor → tabEntry m'.tab i = tabEntry m.tab i) ∧
      m'.tab.length = m.tab.length ∧ m'.lastFault = code ∧
      (∀ i : Byte, nextConn m'.tab m.cursor = some i → m'.cursor = i) ∧
      (nextConn m'.tab m.cursor = none → m'.cursor = m.cursor) ∧
      m' = { m with tab := m'.tab, cursor := m'.cursor, lastFault := m'.lastFault }

/-- R186, R315: the two validation faults of a reply, in their order, for every packet instruction. -/
def Obligations.ReplyValidation : Prop :=
  ∀ (s : State) (e : Entry) (i : Instr), s.hasReply e → i.source = .line → i.wf = true →
    (wordValid i.word = false → exec i s = .next (s.setMaster (s.master.faulted .checksum))) ∧
    (wordValid i.word = true → uidOf i.word ≠ s.master.cursor →
      exec i s = .next (s.setMaster (s.master.faulted .protocol)))

/-- R187: a reply in `ExpectType`, for every packet instruction. -/
def Obligations.ReplyInExpectType : Prop :=
  ∀ (s : State) (e : Entry) (i : Instr) (data endm : Byte), s.hasReply e →
    isPacket i s.master.cursor data endm → e.stage = .expectType →
    exec i s = .next (s.setMaster
      (if data = 0x10 then
        s.master.accepted { e with kind := .train, stage := .expectIdentityByte0, pendValid := true,
                                   pendCmd := 0x0C } endm
       else if data = 0x11 then
        s.master.accepted { e with kind := .station, stage := .expectIdentityByte0,
                                   pendValid := true, pendCmd := 0x0C } endm
       else s.master.faulted .protocol))

/-- R188: a reply in the three identity stages, for every packet instruction. -/
def Obligations.ReplyInIdentityStages : Prop :=
  ∀ (s : State) (e : Entry) (i : Instr) (data endm : Byte), s.hasReply e →
    isPacket i s.master.cursor data endm →
    (e.stage = .expectIdentityByte0 → exec i s = .next (s.setMaster (s.master.accepted
      { e with identity := ⟨data, e.identity.b1, e.identity.b2⟩, stage := .expectIdentityByte1,
               pendValid := true, pendCmd := 0x0D } endm))) ∧
    (e.stage = .expectIdentityByte1 → exec i s = .next (s.setMaster (s.master.accepted
      { e with identity := ⟨e.identity.b0, data, e.identity.b2⟩, stage := .expectIdentityByte2,
               pendValid := true, pendCmd := 0x0E } endm))) ∧
    (e.stage = .expectIdentityByte2 → exec i s = .next (s.setMaster (s.master.accepted
      { e with identity := ⟨e.identity.b0, e.identity.b1, data⟩, stage := .expectAck,
               pendValid := false } endm)))

/-- R190: a reply in `ExpectAck`, for every packet instruction. -/
def Obligations.ReplyInExpectAck : Prop :=
  ∀ (s : State) (e : Entry) (i : Instr) (data endm : Byte), s.hasReply e →
    isPacket i s.master.cursor data endm → e.stage = .expectAck →
    exec i s = .next (s.setMaster
      (if data = 0x04 then s.master.accepted { e with pendValid := false } endm
       else s.master.faulted .protocol))

/-- R191: a reply in `ExpectAny`, for every packet instruction. -/
def Obligations.ReplyInExpectAny : Prop :=
  ∀ (s : State) (e : Entry) (i : Instr) (data endm : Byte), s.hasReply e →
    isPacket i s.master.cursor data endm → e.stage = .expectAny →
    exec i s = .next (s.setMaster
      (if data = 0x06 then s.master.faulted .disconnect
       else s.master.accepted { e with pendValid := false, stage := .expectAck } endm))

/-- R193, R194: where the cursor and the state of the master stand after an accepted reply and after a
fault. -/
def Obligations.AfterAReply : Prop :=
  ∀ (m : Master) (e : Entry) (endm : Byte) (code : FaultCode), tabEntry m.tab m.cursor = some e →
    (∀ e' : Entry, e'.kind ≠ .disconnected →
      (endm = 0x01 → nextConn (m.accepted e' endm).tab m.cursor =
        some (m.accepted e' endm).cursor) ∧
      (endm ≠ 0x01 → (m.accepted e' endm).cursor = m.cursor) ∧
      (m.accepted e' endm).mstate =
        (if m.session then MState.acceptingConnections else .polling)) ∧
    (m.faulted code).mstate =
      (if connectedCount (m.faulted code).tab = 0 then MState.acceptingConnections
       else if m.session then .acceptingConnections else .polling)

/-- R132, R185, R312: a receive that the threshold aborted raises the SYNC fault. -/
def Obligations.SilentReplyFaults : Prop :=
  ∀ (s : State) (e : Entry), tabEntry s.master.tab s.master.cursor = some e →
    s.master.fr.fstatus = .sync →
    completeReply s = .next (s.setMaster (s.master.faulted .sync))

/-! ### The master's phases and decisions -/

/-- R180 to R182: the invitation train. -/
def Obligations.InvitationTrain : Prop :=
  ∀ (s : State) (lv : Bool),
    (s.master.mph = .invFirst → masterTick lv s = .next (s.setMaster
      { s.master with fr := { s.master.fr with drv := true }, mph := .invB })) ∧
    (s.master.mph = .invB → masterTick lv s = .next (s.setMaster
      { s.master with fr := { s.master.fr with drv := false }, mph := .invA })) ∧
    (s.master.mph = .invA → lv = true → masterTick lv s = .next (s.setMaster
      { s.master with fr := { s.master.fr with drv := false }, mph := .gapAssign, gapCnt := 66 })) ∧
    (s.master.mph = .invA → lv = false → s.master.enumEn = false →
      masterTick lv s = andThen
        (dispatchMailbox (s.setMaster
          { s.master with fr := { s.master.fr with drv := false } })) fun t =>
        andThen (masterDecide t.master) fun m => .next (t.setMaster m)) ∧
    (s.master.mph = .invA → lv = false → s.master.enumEn = true →
      masterTick lv s = andThen (dispatchMailbox s) fun t => .next (t.setMaster
        { t.master with fr := { t.master.fr with drv := true }, mph := .invB }))

/-- R183: the gap before an id assignment, and the assignment at its end. -/
def Obligations.IdAssignment : Prop :=
  ∀ (s : State) (lv : Bool) (i : Byte), s.master.mph = .gapAssign →
    (2 ≤ s.master.gapCnt → masterTick lv s = .next (s.setMaster
      { s.master with fr := { s.master.fr with drv := false }, gapCnt := s.master.gapCnt - 1 })) ∧
    (s.master.gapCnt = 1 → s.master.fr.fmode = .idle → lowestFree s.master.tab = some i →
      masterTick lv s = .next (s.setMaster
        { s.master with
          gapCnt := 0
          tab := setTabEntry s.master.tab i
            { kind := .unspecified, identity := ⟨0, 0, 0⟩, pendValid := false, pendCmd := 0,
              stage := .expectType, arg := 0 }
          cursor := i
          mph := .txPoll
          mstate := .awaitingHandshakeReply
          fr := ({ s.master.fr with drv := false } : Framer).sending (pack i 0x0F 0) }))

/-- R184: the gap before the markers, and the first marker at its end. -/
def Obligations.MarkerGap : Prop :=
  ∀ (s : State) (lv : Bool), s.master.mph = .gapMarker →
    (2 ≤ s.master.gapCnt → masterTick lv s = .next (s.setMaster
      { s.master with fr := { s.master.fr with drv := false }, gapCnt := s.master.gapCnt - 1 })) ∧
    (s.master.gapCnt = 1 → s.master.fr.fmode = .idle →
      masterTick lv s = .next (s.setMaster
        { s.master with
          gapCnt := 0
          mph := .txMarker
          fr := ({ s.master.fr with drv := false } : Framer).sending (pack 255 0x05 0) }))

/-- R172: what follows each transmit of the master, on its completing tick; the reply's follow-up is
`StepRunsReply`. -/
def Obligations.TransmitFollowUps : Prop :=
  ∀ s : State, s.master.fr.fmode = .idle →
    (s.master.mph = .txPoll → txFollowUp s = .next (s.setMaster
      { s.master with fr := s.master.fr.seeking, mph := .rxReply })) ∧
    (s.master.mph = .txBcast → txFollowUp s = andThen (dispatchMailbox s) fun t =>
      andThen (masterDecide t.master) fun m => .next (t.setMaster m)) ∧
    (s.master.mph = .txAnnounce → txFollowUp s = andThen
      (dispatchMailbox (s.setMaster
        { s.master with mstate := .acceptingConnections, session := true })) fun t =>
      andThen (masterDecide t.master) fun m => .next (t.setMaster m)) ∧
    (s.master.mph = .txMarker → s.master.mkCnt + 1 < 3 → txFollowUp s = .next (s.setMaster
      { s.master with mkCnt := s.master.mkCnt + 1, fr := s.master.fr.sending (pack 255 0x05 0) })) ∧
    (s.master.mph = .txMarker → 3 ≤ s.master.mkCnt + 1 → txFollowUp s = andThen
      (dispatchMailbox (s.setMaster
        { s.master with
          session := false
          mkCnt := 0
          mstate := if 0 < connectedCount s.master.tab then .polling else s.master.mstate }))
      fun t => andThen (masterDecide t.master) fun m => .next (t.setMaster m))

/-- R170, R171, R178, R179: the decision in `AcceptingConnections`. -/
def Obligations.DecideAccepting : Prop :=
  ∀ m : Master, m.mstate = .acceptingConnections →
    (m.enumEn = true → lowestFree m.tab = none →
      masterDecide m = .next { m with session := true, capFault := true, mph := .idle }) ∧
    (m.enumEn = true → lowestFree m.tab ≠ none →
      masterDecide m = .next { m with session := true, capFault := false, mph := .invFirst }) ∧
    (m.enumEn = false → m.session = true →
      masterDecide m = .next { m with mph := .gapMarker, gapCnt := 66, mkCnt := 0 }) ∧
    (m.enumEn = false → m.session = false → connectedCount m.tab = 0 →
      masterDecide m = .next { m with mph := .idle }) ∧
    (m.enumEn = false → m.session = false → connectedCount m.tab ≠ 0 →
      masterDecide m = masterDecide { m with mstate := .polling })

/-- R170, R173 to R177: the decision in `Polling`. -/
def Obligations.DecidePolling : Prop :=
  ∀ m : Master, m.mstate = .polling →
    (connectedCount m.tab = 0 →
      masterDecide m = masterDecide { m with mstate := .acceptingConnections }) ∧
    (connectedCount m.tab ≠ 0 → m.fr.fmode = .idle →
      (m.bcValid = true → masterDecide m = .next
        { m with fr := m.fr.sending (pack 255 m.bcCmd m.bcArg), bcValid := false,
                 mph := .txBcast }) ∧
      (m.bcValid = false → m.enumEn = true → masterDecide m = .next
        { m with fr := m.fr.sending (pack 255 0x05 0), mph := .txAnnounce }) ∧
      ∀ (c : Byte) (e : Entry), m.bcValid = false → m.enumEn = false →
        (connectedAt m.tab m.cursor = true ∧ c = m.cursor ∨
         connectedAt m.tab m.cursor = false ∧ nextConn m.tab m.cursor = some c) →
        tabEntry m.tab c = some e →
        masterDecide m = .next
          { m with
            cursor := c
            fr := m.fr.sending
              (pack c (if e.pendValid then e.pendCmd else 0) (e.arg.extractLsb' 0 8))
            mph := .txPoll
            mstate := .awaitingHandshakeReply })

/-! ### Contact scan, dispatch and the host port -/

/-- R262, R263, R266: an empty contact takes three ticks, with scan engine and mailbox carried from each to
the next: the pulse tick and the release tick, whatever they sample, and a probe that samples 0, which ends
the cycle. No tick writes the mailbox or the cache, and the line is driven on the first alone. -/
def Obligations.EmptyContact : Prop :=
  ∀ (n : Nat) (c : Scan) (b : Mailbox) (b₁ b₂ : Bool), c.Inv n → c.scPh = .pulse →
    let pulsed := scanTick n b₁ c b
    let released := scanTick n b₂ pulsed.1 pulsed.2
    let probed := scanTick n false released.1 released.2
    pulsed = ({ c with scDrv := (List.replicate n false).set c.scIdx true, scPh := .rel }, b) ∧
    released = ({ c with scDrv := List.replicate n false, scPh := .probe }, b) ∧
    probed = ({ c with scIdx := (c.scIdx + 1) % n, scDrv := List.replicate n false }, b)

/-- R261, R264, R265, R267, R268: a tag on the selected line is read in twelve ticks, whatever its
identifier: a valid frame with a new identifier is reported and cached, any other one is not, and the
next line is selected. -/
def Obligations.ScanReadsTag : Prop :=
  ∀ (n : Nat) (c : Scan) (b : Mailbox) (t : Tag), c.Inv n → c.scPh = .pulse → t.sent = 0 →
    let y := (scanWithTag n)^[12] ((c, b), t, false)
    y.1.1.scIdx = (c.scIdx + 1) % n ∧ y.1.1.scPh = .pulse ∧ y.1.1.scVal = t.ident ∧
    y.2.1 = t ∧ y.2.2 = false ∧ y.1.1.Inv n ∧
    (t.check = true ∧ t.ident ≠ c.cache.getD c.scIdx 0 →
      y.1.1.cache = c.cache.set c.scIdx t.ident ∧
      y.1.2 = { valid := true, line := c.scIdx, ident := t.ident }) ∧
    (¬ (t.check = true ∧ t.ident ≠ c.cache.getD c.scIdx 0) →
      y.1.1.cache = c.cache ∧ y.1.2 = b)

/-- R268, R271: a valid frame with a new identifier is cached and reported; the same identifier again on
the same line is suppressed; a different one is reported again. -/
def Obligations.ReportOnce : Prop :=
  ∀ (n : Nat) (c : Scan) (b b' : Mailbox) (x : Byte), c.Inv n →
    c.scVal ≠ c.cache.getD c.scIdx 0 → x ≠ c.scVal →
    report c b = ({ c with cache := c.cache.set c.scIdx c.scVal },
                  { valid := true, line := c.scIdx, ident := c.scVal }) ∧
    report (report c b).1 b' = ((report c b).1, b') ∧
    (report { (report c b).1 with scVal := x } b').2 =
      { valid := true, line := c.scIdx, ident := x }

/-- R290, R294: the mailbox step: a report is consumed, and either becomes the pending command of the
entry its mapping names or is dropped; nothing else changes. -/
def Obligations.DispatchOfAReport : Prop :=
  ∀ s : State,
    (s.mailbox.valid = false → dispatchMailbox s = .next s) ∧
    (s.mailbox.valid = true →
      (s.params.scanTarget s.mailbox.line s.mailbox.ident = none →
        dispatchMailbox s = .next { s with mailbox := { s.mailbox with valid := false } }) ∧
      ∀ (g : ScanTarget) (e : Entry),
        s.params.scanTarget s.mailbox.line s.mailbox.ident = some g →
        tabEntry s.master.tab g.dev = some e →
        dispatchMailbox s = .next
          { s with
            mailbox := { s.mailbox with valid := false }
            master := { s.master with
              tab := if e.kind ≠ .disconnected ∧ e.stage = .expectAck then
                  setTabEntry s.master.tab g.dev
                    { e with pendValid := true, pendCmd := g.cmd, arg := g.arg.setWidth 16,
                             stage := if g.ff then .expectAny else .expectAck }
                else s.master.tab } })

/-- R283: the two light commands fill the broadcast slot, whatever it held. -/
def Obligations.HostLightQueuesBroadcast : Prop :=
  ∀ s : State,
    exec .hostLight1 s =
      .next { s with master := { s.master with bcValid := true, bcCmd := 0x07, bcArg := 0 } } ∧
    exec .hostLight0 s =
      .next { s with master := { s.master with bcValid := true, bcCmd := 0x08, bcArg := 0 } }

/-- R284, R285: the two enumeration commands write `enum_en`. -/
def Obligations.HostEnableAndCancel : Prop :=
  ∀ s : State,
    exec .hostEnable s = .next { s with master := { s.master with enumEn := true } } ∧
    exec .hostCancel s = .next { s with master := { s.master with enumEn := false } }

/-- R286: the motor command: direction 0 and 1 fill the broadcast slot, 2 to 15 are ignored. -/
def Obligations.HostMotorQueuesBroadcast : Prop :=
  ∀ (s : State) (dir : BitVec 4) (speed : Byte),
    exec (.hostMotor dir speed) s = .next
      { s with master :=
          if dir.toNat = 0 then { s.master with bcValid := true, bcCmd := 0x0A, bcArg := speed }
          else if dir.toNat = 1 then { s.master with bcValid := true, bcCmd := 0x0B, bcArg := speed }
          else s.master }

/-- R44, R287, R288, R311: the two reads. The bitmap is answered in eight words, id `i` in bit `i mod 32`
of word `i / 32`; the last fault as its code; no register is written. -/
def Obligations.HostReads : Prop :=
  ∀ s : State,
    (∃ ws : List Word,
      exec .hostBitmap s = .next { s with hostOut := some (.bitmap ws) } ∧ ws.length = 8 ∧
      ∀ i, i < 256 →
        (ws.getD (i / 32) 0).getLsbD (i % 32) = connectedAt s.master.tab (BitVec.ofNat 8 i)) ∧
    exec .hostLastFault s = .next
      { s with hostOut := some (.lastFault (match s.master.lastFault with
                                            | .none => 0
                                            | .sync => 1
                                            | .protocol => 2
                                            | .checksum => 3
                                            | .disconnect => 4)) }

/-! ### Reset -/

/-- R46: the reset values of the master, the scan engine, the mailbox and every slave. -/
def Obligations.ResetValues : Prop :=
  State.reset.master =
    { fr := { fmode := .idle, txWord := 0, txPos := 0, rxSub := .seekHi, rxPos := 0, rxVal := 0,
              fails := 0, fdone := false, fstatus := .ok, drv := false }
      pwrDrv := true
      mstate := .acceptingConnections
      mph := .idle
      cursor := 1
      session := true
      mkCnt := 0
      gapCnt := 0
      enumEn := true
      bcValid := false
      bcCmd := 0
      bcArg := 0
      lastFault := .none
      capFault := false
      tab := List.replicate 254
        { kind := .disconnected, identity := ⟨0, 0, 0⟩, pendValid := false, pendCmd := 0,
          stage := .expectType, arg := 0 } } ∧
  (∀ v ∈ State.reset.slaves, v =
    { cfg := v.cfg
      fr := { fmode := .idle, txWord := 0, txPos := 0, rxSub := .seekHi, rxPos := 0, rxVal := 0,
              fails := 0, fdone := false, fstatus := .ok, drv := false }
      sstate := .unassigned
      sph := .listen
      ownId := 0
      afterTx := .none
      smk := 0
      light := false
      motorDir := .stop
      motorSpeed := 0 }) ∧
  State.reset.scan =
    { scIdx := 0, scPh := .pulse, scK := 0, scVal := 0,
      scDrv := List.replicate State.reset.params.numScan false,
      cache := List.replicate State.reset.params.numScan 0 } ∧
  State.reset.mailbox = { valid := false, line := 0, ident := 0 }

/-- R240, R350, R354: an agent whose reset input is asserted holds its reset values after the step,
whatever the others do; only that returns a slave with an id to `Unassigned`: every other step, a reset
of the master among them, leaves its id as it is. -/
def Obligations.HeldInReset : Prop :=
  ∀ s t : State, step s = .next t →
    (s.nextInput.resetMaster = true →
      t.master = Master.reset ∧ t.scan = Scan.reset s.params.numScan ∧ t.mailbox = Mailbox.reset) ∧
    (∀ (k : Nat) (v : Slave), s.slaves[k]? = some v → s.nextInput.resetSlaves.contains k = true →
      t.slaves[k]? = some (Slave.reset v.cfg)) ∧
    (∀ (k : Nat) (v : Slave), s.slaves[k]? = some v → s.nextInput.resetSlaves.contains k = false →
      v.sstate ≠ .unassigned →
      ∃ v', t.slaves[k]? = some v' ∧ v'.sstate ≠ .unassigned ∧ v'.ownId = v.ownId ∧ v'.cfg = v.cfg)

/-! ### The machine -/

/-- The step runs the decoded packet: slave `k` is out of reset and one tick from completing the word `w`,
the agents before it in the tick answer, and `w` decodes to `i`; then the step is those agents' steps,
`exec i` with slave `k` as the receiver, and the rest of the tick (R75, R213). -/
def Obligations.StepRunsPacket : Prop :=
  ∀ (s s₁ : State) (k : Nat) (v : Slave) (w : Word) (i : Instr),
    s.params.refusal = none → s.slaves[k]? = some v → v.sph = .rx → v.fr.lastTickOf w →
    s.nextInput.resetSlaves.contains k = false → s.beforeSlave k = .next s₁ →
    decode .line [uidOf w, cmdOf w, argOf w, cksOf w] = .ok i →
    step s = andThen
      (exec i ((s₁.setSlave k { v with fr := v.fr.received w }).setReceiver (.slave k)))
      (s.afterSlave k)

/-- The step runs the reply packet: the master is one tick from completing the word `w` of a reply; then
the step is `exec` of the packet with the master as the receiver, the dispatch and the decision, and the
rest of the tick (R75, R172, R185). -/
def Obligations.StepRunsReply : Prop :=
  ∀ (s : State) (w : Word) (i : Instr),
    s.params.refusal = none → s.nextInput.resetMaster = false → s.nextInput.host = [] →
    s.master.mph = .rxReply → s.master.fr.lastTickOf w →
    decode .line [uidOf w, cmdOf w, argOf w, cksOf w] = .ok i →
    step s = andThen
      (exec i (((s.setHostOut none).setMaster
        { s.master with fr := s.master.fr.received w }).setReceiver .master))
      fun s₁ => andThen (dispatchMailbox s₁) fun s₂ =>
        andThen (masterDecide s₂.master) fun m => s.afterMaster (s₂.setMaster m)

/-- The step runs the host command of the tick before the master's own step, which sees its writes
(R282). -/
def Obligations.StepRunsHostCommand : Prop :=
  ∀ (s : State) (c : HostCmd) (i : Instr),
    s.params.refusal = none → s.nextInput.resetMaster = false → s.nextInput.host = [c] →
    i = (match c with
          | .light b => if b then .hostLight1 else .hostLight0
          | .motor dir speed => .hostMotor dir speed
          | .bitmap => .hostBitmap
          | .enable => .hostEnable
          | .cancel => .hostCancel
          | .lastFault => .hostLastFault) →
    step s = andThen (exec i (s.setHostOut none)) fun s₁ =>
      andThen (masterTick s.dataLevel s₁) s.afterMaster

/-- R239: in a state that meets the invariant a slave drives the line only as the presence of an
unassigned listener that sampled an active line or inside a reply, and it starts a reply only on a valid
packet that is addressed to it, in `RespondPending` or `Serving`, never on a broadcast; the reply carries
its own id and `END-OF-TURN`. -/
def Obligations.SlaveTransmitsOnlyWhenAsked : Prop :=
  ∀ (s t : State) (k : Nat) (v v' : Slave), s.Inv → step s = .next t → s.slaves[k]? = some v →
    t.slaves[k]? = some v' →
    (v'.fr.drv = true →
      v.sph = .listen ∧ v.sstate = .unassigned ∧ s.dataLevel = true ∨
      v.sph = .tx ∧ (v.sstate = .respondPending ∨ v.sstate = .serving)) ∧
    (v'.sph = .tx → v.sph ≠ .tx →
      ∃ w d : _, v.sph = .rx ∧ v.fr.lastTickOf w ∧ wordValid w = true ∧ uidOf w = v'.ownId ∧
        uidOf w ≠ 255 ∧ (v'.sstate = .respondPending ∨ v'.sstate = .serving) ∧
        v'.fr.txWord = pack v'.ownId d 0x01)

/-- R195: in a state that meets the invariant an id becomes connected in a step only by the assignment at
the end of the gap, and it is the lowest free one; an id is freed only by a fault on the polled one (or
by the reset of the master). -/
def Obligations.ConnectedSetChanges : Prop :=
  ∀ (s t : State) (i : Byte), s.Inv → step s = .next t → s.nextInput.resetMaster = false →
    (connectedAt s.master.tab i = false → connectedAt t.master.tab i = true →
      s.master.mph = .gapAssign ∧ s.master.gapCnt = 1 ∧ lowestFree s.master.tab = some i ∧
      t.master.cursor = i ∧ t.master.fr.txWord = pack i 0x0F 0) ∧
    (connectedAt s.master.tab i = true → connectedAt t.master.tab i = false →
      s.master.mph = .rxReply ∧ i = s.master.cursor ∧ t.master.lastFault ≠ .none)

/-- R78: no write reaches the table between the arming of a poll and its reply, and the cursor stays. -/
def Obligations.TableStableDuringPoll : Prop :=
  ∀ s t : State, step s = .next t → s.nextInput.resetMaster = false →
    (s.master.mph = .txPoll ∨ s.master.mph = .rxReply ∧ t.master.mph = .rxReply) →
    t.master.tab = s.master.tab ∧ t.master.cursor = s.master.cursor

/-- R30, R34: `enum_en` is written by the host's `c` and `r` alone, and the power drive never changes. -/
def Obligations.HostAloneWritesEnable : Prop :=
  ∀ s t : State, step s = .next t → s.nextInput.resetMaster = false →
    t.master.enumEn = (if s.nextInput.host = [.enable] then true
                       else if s.nextInput.host = [.cancel] then false else s.master.enumEn) ∧
    t.master.pwrDrv = s.master.pwrDrv

/-- R73, R75: what a slave becomes in a step depends on its own registers, the level of the line and its
reset input, and on nothing else in the system. -/
def Obligations.SlaveSeesOnlyTheLine : Prop :=
  ∀ (s s' t t' : State) (k : Nat), step s = .next t → step s' = .next t' →
    s.slaves[k]? = s'.slaves[k]? → s.dataLevel = s'.dataLevel →
    s.nextInput.resetSlaves.contains k = s'.nextInput.resetSlaves.contains k →
    t.slaves[k]? = t'.slaves[k]?

/-- The invariant holds right after reset (R46; the open parameters are any in their ranges). -/
def Obligations.InvariantAtReset : Prop := State.reset.Inv

/-- Every step keeps the invariant (R21 to R38, R161, R210, R262). -/
def Obligations.StepKeepsInvariant : Prop :=
  ∀ s t : State, s.Inv → step s = .next t → t.Inv

/-- R320, R360, R375: from every state that meets the invariant, whatever the environment drives, with at
most one command on the host port, the step answers. -/
def Obligations.StepProgress : Prop :=
  ∀ s : State, s.Inv → s.oneHostCommand → ∃ t, step s = .next t
end

