-- ==== Sys2Proof/Laws/State.lean ====
section
/-!
SUPPORT. The small lemmas of every named update: one per field, true by definition, so that no later
proof unfolds a record update.
-/

namespace Sys2Proof.Machine

@[simp] theorem State.setMaster_params (s : State) (m : Master) :
    (s.setMaster m).params = s.params := rfl

@[simp] theorem State.setMaster_master (s : State) (m : Master) :
    (s.setMaster m).master = m := rfl

@[simp] theorem State.setMaster_slaves (s : State) (m : Master) :
    (s.setMaster m).slaves = s.slaves := rfl

@[simp] theorem State.setMaster_scan (s : State) (m : Master) :
    (s.setMaster m).scan = s.scan := rfl

@[simp] theorem State.setMaster_mailbox (s : State) (m : Master) :
    (s.setMaster m).mailbox = s.mailbox := rfl

@[simp] theorem State.setMaster_extDrv (s : State) (m : Master) :
    (s.setMaster m).extDrv = s.extDrv := rfl

@[simp] theorem State.setMaster_tagDrv (s : State) (m : Master) :
    (s.setMaster m).tagDrv = s.tagDrv := rfl

@[simp] theorem State.setMaster_inputs (s : State) (m : Master) :
    (s.setMaster m).inputs = s.inputs := rfl

@[simp] theorem State.setMaster_receiver (s : State) (m : Master) :
    (s.setMaster m).receiver = s.receiver := rfl

@[simp] theorem State.setMaster_hostOut (s : State) (m : Master) :
    (s.setMaster m).hostOut = s.hostOut := rfl

@[simp] theorem State.setSlave_params (s : State) (k : Nat) (v : Slave) :
    (s.setSlave k v).params = s.params := rfl

@[simp] theorem State.setSlave_master (s : State) (k : Nat) (v : Slave) :
    (s.setSlave k v).master = s.master := rfl

@[simp] theorem State.setSlave_slaves (s : State) (k : Nat) (v : Slave) :
    (s.setSlave k v).slaves = s.slaves.set k v := rfl

@[simp] theorem State.setSlave_scan (s : State) (k : Nat) (v : Slave) :
    (s.setSlave k v).scan = s.scan := rfl

@[simp] theorem State.setSlave_mailbox (s : State) (k : Nat) (v : Slave) :
    (s.setSlave k v).mailbox = s.mailbox := rfl

@[simp] theorem State.setSlave_extDrv (s : State) (k : Nat) (v : Slave) :
    (s.setSlave k v).extDrv = s.extDrv := rfl

@[simp] theorem State.setSlave_tagDrv (s : State) (k : Nat) (v : Slave) :
    (s.setSlave k v).tagDrv = s.tagDrv := rfl

@[simp] theorem State.setSlave_inputs (s : State) (k : Nat) (v : Slave) :
    (s.setSlave k v).inputs = s.inputs := rfl

@[simp] theorem State.setSlave_receiver (s : State) (k : Nat) (v : Slave) :
    (s.setSlave k v).receiver = s.receiver := rfl

@[simp] theorem State.setSlave_hostOut (s : State) (k : Nat) (v : Slave) :
    (s.setSlave k v).hostOut = s.hostOut := rfl

@[simp] theorem State.setScan_params (s : State) (c : Scan) :
    (s.setScan c).params = s.params := rfl

@[simp] theorem State.setScan_master (s : State) (c : Scan) :
    (s.setScan c).master = s.master := rfl

@[simp] theorem State.setScan_slaves (s : State) (c : Scan) :
    (s.setScan c).slaves = s.slaves := rfl

@[simp] theorem State.setScan_scan (s : State) (c : Scan) :
    (s.setScan c).scan = c := rfl

@[simp] theorem State.setScan_mailbox (s : State) (c : Scan) :
    (s.setScan c).mailbox = s.mailbox := rfl

@[simp] theorem State.setScan_extDrv (s : State) (c : Scan) :
    (s.setScan c).extDrv = s.extDrv := rfl

@[simp] theorem State.setScan_tagDrv (s : State) (c : Scan) :
    (s.setScan c).tagDrv = s.tagDrv := rfl

@[simp] theorem State.setScan_inputs (s : State) (c : Scan) :
    (s.setScan c).inputs = s.inputs := rfl

@[simp] theorem State.setScan_receiver (s : State) (c : Scan) :
    (s.setScan c).receiver = s.receiver := rfl

@[simp] theorem State.setScan_hostOut (s : State) (c : Scan) :
    (s.setScan c).hostOut = s.hostOut := rfl

@[simp] theorem State.setMailbox_params (s : State) (b : Mailbox) :
    (s.setMailbox b).params = s.params := rfl

@[simp] theorem State.setMailbox_master (s : State) (b : Mailbox) :
    (s.setMailbox b).master = s.master := rfl

@[simp] theorem State.setMailbox_slaves (s : State) (b : Mailbox) :
    (s.setMailbox b).slaves = s.slaves := rfl

@[simp] theorem State.setMailbox_scan (s : State) (b : Mailbox) :
    (s.setMailbox b).scan = s.scan := rfl

@[simp] theorem State.setMailbox_mailbox (s : State) (b : Mailbox) :
    (s.setMailbox b).mailbox = b := rfl

@[simp] theorem State.setMailbox_extDrv (s : State) (b : Mailbox) :
    (s.setMailbox b).extDrv = s.extDrv := rfl

@[simp] theorem State.setMailbox_tagDrv (s : State) (b : Mailbox) :
    (s.setMailbox b).tagDrv = s.tagDrv := rfl

@[simp] theorem State.setMailbox_inputs (s : State) (b : Mailbox) :
    (s.setMailbox b).inputs = s.inputs := rfl

@[simp] theorem State.setMailbox_receiver (s : State) (b : Mailbox) :
    (s.setMailbox b).receiver = s.receiver := rfl

@[simp] theorem State.setMailbox_hostOut (s : State) (b : Mailbox) :
    (s.setMailbox b).hostOut = s.hostOut := rfl

@[simp] theorem State.setHostOut_params (s : State) (a : Option HostAnswer) :
    (s.setHostOut a).params = s.params := rfl

@[simp] theorem State.setHostOut_master (s : State) (a : Option HostAnswer) :
    (s.setHostOut a).master = s.master := rfl

@[simp] theorem State.setHostOut_slaves (s : State) (a : Option HostAnswer) :
    (s.setHostOut a).slaves = s.slaves := rfl

@[simp] theorem State.setHostOut_scan (s : State) (a : Option HostAnswer) :
    (s.setHostOut a).scan = s.scan := rfl

@[simp] theorem State.setHostOut_mailbox (s : State) (a : Option HostAnswer) :
    (s.setHostOut a).mailbox = s.mailbox := rfl

@[simp] theorem State.setHostOut_extDrv (s : State) (a : Option HostAnswer) :
    (s.setHostOut a).extDrv = s.extDrv := rfl

@[simp] theorem State.setHostOut_tagDrv (s : State) (a : Option HostAnswer) :
    (s.setHostOut a).tagDrv = s.tagDrv := rfl

@[simp] theorem State.setHostOut_inputs (s : State) (a : Option HostAnswer) :
    (s.setHostOut a).inputs = s.inputs := rfl

@[simp] theorem State.setHostOut_receiver (s : State) (a : Option HostAnswer) :
    (s.setHostOut a).receiver = s.receiver := rfl

@[simp] theorem State.setHostOut_hostOut (s : State) (a : Option HostAnswer) :
    (s.setHostOut a).hostOut = a := rfl

@[simp] theorem State.setReceiver_params (s : State) (r : Receiver) :
    (s.setReceiver r).params = s.params := rfl

@[simp] theorem State.setReceiver_master (s : State) (r : Receiver) :
    (s.setReceiver r).master = s.master := rfl

@[simp] theorem State.setReceiver_slaves (s : State) (r : Receiver) :
    (s.setReceiver r).slaves = s.slaves := rfl

@[simp] theorem State.setReceiver_scan (s : State) (r : Receiver) :
    (s.setReceiver r).scan = s.scan := rfl

@[simp] theorem State.setReceiver_mailbox (s : State) (r : Receiver) :
    (s.setReceiver r).mailbox = s.mailbox := rfl

@[simp] theorem State.setReceiver_extDrv (s : State) (r : Receiver) :
    (s.setReceiver r).extDrv = s.extDrv := rfl

@[simp] theorem State.setReceiver_tagDrv (s : State) (r : Receiver) :
    (s.setReceiver r).tagDrv = s.tagDrv := rfl

@[simp] theorem State.setReceiver_inputs (s : State) (r : Receiver) :
    (s.setReceiver r).inputs = s.inputs := rfl

@[simp] theorem State.setReceiver_receiver (s : State) (r : Receiver) :
    (s.setReceiver r).receiver = r := rfl

@[simp] theorem State.setReceiver_hostOut (s : State) (r : Receiver) :
    (s.setReceiver r).hostOut = s.hostOut := rfl

@[simp] theorem State.setMasterFramer_params (s : State) (f : Framer) :
    (s.setMasterFramer f).params = s.params := rfl

@[simp] theorem State.setMasterFramer_master (s : State) (f : Framer) :
    (s.setMasterFramer f).master = { s.master with fr := f } := rfl

@[simp] theorem State.setMasterFramer_slaves (s : State) (f : Framer) :
    (s.setMasterFramer f).slaves = s.slaves := rfl

@[simp] theorem State.setMasterFramer_scan (s : State) (f : Framer) :
    (s.setMasterFramer f).scan = s.scan := rfl

@[simp] theorem State.setMasterFramer_mailbox (s : State) (f : Framer) :
    (s.setMasterFramer f).mailbox = s.mailbox := rfl

@[simp] theorem State.setMasterFramer_extDrv (s : State) (f : Framer) :
    (s.setMasterFramer f).extDrv = s.extDrv := rfl

@[simp] theorem State.setMasterFramer_tagDrv (s : State) (f : Framer) :
    (s.setMasterFramer f).tagDrv = s.tagDrv := rfl

@[simp] theorem State.setMasterFramer_inputs (s : State) (f : Framer) :
    (s.setMasterFramer f).inputs = s.inputs := rfl

@[simp] theorem State.setMasterFramer_receiver (s : State) (f : Framer) :
    (s.setMasterFramer f).receiver = s.receiver := rfl

@[simp] theorem State.setMasterFramer_hostOut (s : State) (f : Framer) :
    (s.setMasterFramer f).hostOut = s.hostOut := rfl

@[simp] theorem State.resetMasterAgent_params (s : State) :
    (s.resetMasterAgent).params = s.params := rfl

@[simp] theorem State.resetMasterAgent_master (s : State) :
    (s.resetMasterAgent).master = Master.reset := rfl

@[simp] theorem State.resetMasterAgent_slaves (s : State) :
    (s.resetMasterAgent).slaves = s.slaves := rfl

@[simp] theorem State.resetMasterAgent_scan (s : State) :
    (s.resetMasterAgent).scan = Scan.reset s.params.numScan := rfl

@[simp] theorem State.resetMasterAgent_mailbox (s : State) :
    (s.resetMasterAgent).mailbox = Mailbox.reset := rfl

@[simp] theorem State.resetMasterAgent_extDrv (s : State) :
    (s.resetMasterAgent).extDrv = s.extDrv := rfl

@[simp] theorem State.resetMasterAgent_tagDrv (s : State) :
    (s.resetMasterAgent).tagDrv = s.tagDrv := rfl

@[simp] theorem State.resetMasterAgent_inputs (s : State) :
    (s.resetMasterAgent).inputs = s.inputs := rfl

@[simp] theorem State.resetMasterAgent_receiver (s : State) :
    (s.resetMasterAgent).receiver = s.receiver := rfl

@[simp] theorem State.resetMasterAgent_hostOut (s : State) :
    (s.resetMasterAgent).hostOut = s.hostOut := rfl

@[simp] theorem Master.setDrv_fr (m : Master) (b : Bool) :
    (m.setDrv b).fr = { m.fr with drv := b } := rfl

@[simp] theorem Master.setDrv_pwrDrv (m : Master) (b : Bool) :
    (m.setDrv b).pwrDrv = m.pwrDrv := rfl

@[simp] theorem Master.setDrv_mstate (m : Master) (b : Bool) :
    (m.setDrv b).mstate = m.mstate := rfl

@[simp] theorem Master.setDrv_mph (m : Master) (b : Bool) :
    (m.setDrv b).mph = m.mph := rfl

@[simp] theorem Master.setDrv_cursor (m : Master) (b : Bool) :
    (m.setDrv b).cursor = m.cursor := rfl

@[simp] theorem Master.setDrv_session (m : Master) (b : Bool) :
    (m.setDrv b).session = m.session := rfl

@[simp] theorem Master.setDrv_mkCnt (m : Master) (b : Bool) :
    (m.setDrv b).mkCnt = m.mkCnt := rfl

@[simp] theorem Master.setDrv_gapCnt (m : Master) (b : Bool) :
    (m.setDrv b).gapCnt = m.gapCnt := rfl

@[simp] theorem Master.setDrv_enumEn (m : Master) (b : Bool) :
    (m.setDrv b).enumEn = m.enumEn := rfl

@[simp] theorem Master.setDrv_bcValid (m : Master) (b : Bool) :
    (m.setDrv b).bcValid = m.bcValid := rfl

@[simp] theorem Master.setDrv_bcCmd (m : Master) (b : Bool) :
    (m.setDrv b).bcCmd = m.bcCmd := rfl

@[simp] theorem Master.setDrv_bcArg (m : Master) (b : Bool) :
    (m.setDrv b).bcArg = m.bcArg := rfl

@[simp] theorem Master.setDrv_lastFault (m : Master) (b : Bool) :
    (m.setDrv b).lastFault = m.lastFault := rfl

@[simp] theorem Master.setDrv_capFault (m : Master) (b : Bool) :
    (m.setDrv b).capFault = m.capFault := rfl

@[simp] theorem Master.setDrv_tab (m : Master) (b : Bool) :
    (m.setDrv b).tab = m.tab := rfl

@[simp] theorem Slave.setDrv_cfg (v : Slave) (b : Bool) :
    (v.setDrv b).cfg = v.cfg := rfl

@[simp] theorem Slave.setDrv_fr (v : Slave) (b : Bool) :
    (v.setDrv b).fr = { v.fr with drv := b } := rfl

@[simp] theorem Slave.setDrv_sstate (v : Slave) (b : Bool) :
    (v.setDrv b).sstate = v.sstate := rfl

@[simp] theorem Slave.setDrv_sph (v : Slave) (b : Bool) :
    (v.setDrv b).sph = v.sph := rfl

@[simp] theorem Slave.setDrv_ownId (v : Slave) (b : Bool) :
    (v.setDrv b).ownId = v.ownId := rfl

@[simp] theorem Slave.setDrv_afterTx (v : Slave) (b : Bool) :
    (v.setDrv b).afterTx = v.afterTx := rfl

@[simp] theorem Slave.setDrv_smk (v : Slave) (b : Bool) :
    (v.setDrv b).smk = v.smk := rfl

@[simp] theorem Slave.setDrv_light (v : Slave) (b : Bool) :
    (v.setDrv b).light = v.light := rfl

@[simp] theorem Slave.setDrv_motorDir (v : Slave) (b : Bool) :
    (v.setDrv b).motorDir = v.motorDir := rfl

@[simp] theorem Slave.setDrv_motorSpeed (v : Slave) (b : Bool) :
    (v.setDrv b).motorSpeed = v.motorSpeed := rfl

@[simp] theorem Master.queueBcast_fr (c a : Byte) (m : Master) :
    (m.queueBcast c a).fr = m.fr := rfl

@[simp] theorem Master.queueBcast_pwrDrv (c a : Byte) (m : Master) :
    (m.queueBcast c a).pwrDrv = m.pwrDrv := rfl

@[simp] theorem Master.queueBcast_mstate (c a : Byte) (m : Master) :
    (m.queueBcast c a).mstate = m.mstate := rfl

@[simp] theorem Master.queueBcast_mph (c a : Byte) (m : Master) :
    (m.queueBcast c a).mph = m.mph := rfl

@[simp] theorem Master.queueBcast_cursor (c a : Byte) (m : Master) :
    (m.queueBcast c a).cursor = m.cursor := rfl

@[simp] theorem Master.queueBcast_session (c a : Byte) (m : Master) :
    (m.queueBcast c a).session = m.session := rfl

@[simp] theorem Master.queueBcast_mkCnt (c a : Byte) (m : Master) :
    (m.queueBcast c a).mkCnt = m.mkCnt := rfl

@[simp] theorem Master.queueBcast_gapCnt (c a : Byte) (m : Master) :
    (m.queueBcast c a).gapCnt = m.gapCnt := rfl

@[simp] theorem Master.queueBcast_enumEn (c a : Byte) (m : Master) :
    (m.queueBcast c a).enumEn = m.enumEn := rfl

@[simp] theorem Master.queueBcast_bcValid (c a : Byte) (m : Master) :
    (m.queueBcast c a).bcValid = true := rfl

@[simp] theorem Master.queueBcast_bcCmd (c a : Byte) (m : Master) :
    (m.queueBcast c a).bcCmd = c := rfl

@[simp] theorem Master.queueBcast_bcArg (c a : Byte) (m : Master) :
    (m.queueBcast c a).bcArg = a := rfl

@[simp] theorem Master.queueBcast_lastFault (c a : Byte) (m : Master) :
    (m.queueBcast c a).lastFault = m.lastFault := rfl

@[simp] theorem Master.queueBcast_capFault (c a : Byte) (m : Master) :
    (m.queueBcast c a).capFault = m.capFault := rfl

@[simp] theorem Master.queueBcast_tab (c a : Byte) (m : Master) :
    (m.queueBcast c a).tab = m.tab := rfl

@[simp] theorem Slave.setLight_cfg (b : Bool) (v : Slave) :
    (v.setLight b).cfg = v.cfg := rfl

@[simp] theorem Slave.setLight_fr (b : Bool) (v : Slave) :
    (v.setLight b).fr = v.fr := rfl

@[simp] theorem Slave.setLight_sstate (b : Bool) (v : Slave) :
    (v.setLight b).sstate = v.sstate := rfl

@[simp] theorem Slave.setLight_sph (b : Bool) (v : Slave) :
    (v.setLight b).sph = v.sph := rfl

@[simp] theorem Slave.setLight_ownId (b : Bool) (v : Slave) :
    (v.setLight b).ownId = v.ownId := rfl

@[simp] theorem Slave.setLight_afterTx (b : Bool) (v : Slave) :
    (v.setLight b).afterTx = v.afterTx := rfl

@[simp] theorem Slave.setLight_smk (b : Bool) (v : Slave) :
    (v.setLight b).smk = v.smk := rfl

@[simp] theorem Slave.setLight_light (b : Bool) (v : Slave) :
    (v.setLight b).light = b := rfl

@[simp] theorem Slave.setLight_motorDir (b : Bool) (v : Slave) :
    (v.setLight b).motorDir = v.motorDir := rfl

@[simp] theorem Slave.setLight_motorSpeed (b : Bool) (v : Slave) :
    (v.setLight b).motorSpeed = v.motorSpeed := rfl

@[simp] theorem Slave.setMotor_cfg (d : MotorDir) (sp : Byte) (v : Slave) :
    (v.setMotor d sp).cfg = v.cfg := rfl

@[simp] theorem Slave.setMotor_fr (d : MotorDir) (sp : Byte) (v : Slave) :
    (v.setMotor d sp).fr = v.fr := rfl

@[simp] theorem Slave.setMotor_sstate (d : MotorDir) (sp : Byte) (v : Slave) :
    (v.setMotor d sp).sstate = v.sstate := rfl

@[simp] theorem Slave.setMotor_sph (d : MotorDir) (sp : Byte) (v : Slave) :
    (v.setMotor d sp).sph = v.sph := rfl

@[simp] theorem Slave.setMotor_ownId (d : MotorDir) (sp : Byte) (v : Slave) :
    (v.setMotor d sp).ownId = v.ownId := rfl

@[simp] theorem Slave.setMotor_afterTx (d : MotorDir) (sp : Byte) (v : Slave) :
    (v.setMotor d sp).afterTx = v.afterTx := rfl

@[simp] theorem Slave.setMotor_smk (d : MotorDir) (sp : Byte) (v : Slave) :
    (v.setMotor d sp).smk = v.smk := rfl

@[simp] theorem Slave.setMotor_light (d : MotorDir) (sp : Byte) (v : Slave) :
    (v.setMotor d sp).light = v.light := rfl

@[simp] theorem Slave.setMotor_motorDir (d : MotorDir) (sp : Byte) (v : Slave) :
    (v.setMotor d sp).motorDir = d := rfl

@[simp] theorem Slave.setMotor_motorSpeed (d : MotorDir) (sp : Byte) (v : Slave) :
    (v.setMotor d sp).motorSpeed = sp := rfl

@[simp] theorem Framer.sending_fmode (w : Word) (f : Framer) :
    (f.sending w).fmode = .tx := rfl

@[simp] theorem Framer.sending_txWord (w : Word) (f : Framer) :
    (f.sending w).txWord = w := rfl

@[simp] theorem Framer.sending_txPos (w : Word) (f : Framer) :
    (f.sending w).txPos = 0 := rfl

@[simp] theorem Framer.sending_rxSub (w : Word) (f : Framer) :
    (f.sending w).rxSub = f.rxSub := rfl

@[simp] theorem Framer.sending_rxPos (w : Word) (f : Framer) :
    (f.sending w).rxPos = f.rxPos := rfl

@[simp] theorem Framer.sending_rxVal (w : Word) (f : Framer) :
    (f.sending w).rxVal = f.rxVal := rfl

@[simp] theorem Framer.sending_fails (w : Word) (f : Framer) :
    (f.sending w).fails = f.fails := rfl

@[simp] theorem Framer.sending_fdone (w : Word) (f : Framer) :
    (f.sending w).fdone = false := rfl

@[simp] theorem Framer.sending_fstatus (w : Word) (f : Framer) :
    (f.sending w).fstatus = f.fstatus := rfl

@[simp] theorem Framer.sending_drv (w : Word) (f : Framer) :
    (f.sending w).drv = f.drv := rfl

@[simp] theorem Framer.seeking_fmode (f : Framer) :
    f.seeking.fmode = .rx := rfl

@[simp] theorem Framer.seeking_txWord (f : Framer) :
    f.seeking.txWord = f.txWord := rfl

@[simp] theorem Framer.seeking_txPos (f : Framer) :
    f.seeking.txPos = f.txPos := rfl

@[simp] theorem Framer.seeking_rxSub (f : Framer) :
    f.seeking.rxSub = .seekHi := rfl

@[simp] theorem Framer.seeking_rxPos (f : Framer) :
    f.seeking.rxPos = 0 := rfl

@[simp] theorem Framer.seeking_rxVal (f : Framer) :
    f.seeking.rxVal = 0 := rfl

@[simp] theorem Framer.seeking_fails (f : Framer) :
    f.seeking.fails = 0 := rfl

@[simp] theorem Framer.seeking_fdone (f : Framer) :
    f.seeking.fdone = false := rfl

@[simp] theorem Framer.seeking_fstatus (f : Framer) :
    f.seeking.fstatus = .ok := rfl

@[simp] theorem Framer.seeking_drv (f : Framer) :
    f.seeking.drv = f.drv := rfl

@[simp] theorem Framer.received_fmode (w : Word) (f : Framer) :
    (f.received w).fmode = .idle := rfl

@[simp] theorem Framer.received_txWord (w : Word) (f : Framer) :
    (f.received w).txWord = f.txWord := rfl

@[simp] theorem Framer.received_txPos (w : Word) (f : Framer) :
    (f.received w).txPos = f.txPos := rfl

@[simp] theorem Framer.received_rxSub (w : Word) (f : Framer) :
    (f.received w).rxSub = f.rxSub := rfl

@[simp] theorem Framer.received_rxPos (w : Word) (f : Framer) :
    (f.received w).rxPos = f.rxPos := rfl

@[simp] theorem Framer.received_rxVal (w : Word) (f : Framer) :
    (f.received w).rxVal = w := rfl

@[simp] theorem Framer.received_fails (w : Word) (f : Framer) :
    (f.received w).fails = f.fails := rfl

@[simp] theorem Framer.received_fdone (w : Word) (f : Framer) :
    (f.received w).fdone = true := rfl

@[simp] theorem Framer.received_fstatus (w : Word) (f : Framer) :
    (f.received w).fstatus = .ok := rfl

@[simp] theorem Framer.received_drv (w : Word) (f : Framer) :
    (f.received w).drv = f.drv := rfl

@[simp] theorem Slave.replying_cfg (d : Byte) (v : Slave) :
    (v.replying d).cfg = v.cfg := rfl

@[simp] theorem Slave.replying_fr (d : Byte) (v : Slave) :
    (v.replying d).fr = v.fr.sending (pack v.ownId d opEndOfTurn) := rfl

@[simp] theorem Slave.replying_sstate (d : Byte) (v : Slave) :
    (v.replying d).sstate = v.sstate := rfl

@[simp] theorem Slave.replying_sph (d : Byte) (v : Slave) :
    (v.replying d).sph = .tx := rfl

@[simp] theorem Slave.replying_ownId (d : Byte) (v : Slave) :
    (v.replying d).ownId = v.ownId := rfl

@[simp] theorem Slave.replying_afterTx (d : Byte) (v : Slave) :
    (v.replying d).afterTx = v.afterTx := rfl

@[simp] theorem Slave.replying_smk (d : Byte) (v : Slave) :
    (v.replying d).smk = v.smk := rfl

@[simp] theorem Slave.replying_light (d : Byte) (v : Slave) :
    (v.replying d).light = v.light := rfl

@[simp] theorem Slave.replying_motorDir (d : Byte) (v : Slave) :
    (v.replying d).motorDir = v.motorDir := rfl

@[simp] theorem Slave.replying_motorSpeed (d : Byte) (v : Slave) :
    (v.replying d).motorSpeed = v.motorSpeed := rfl

@[simp] theorem Slave.listening_cfg (v : Slave) :
    v.listening.cfg = v.cfg := rfl

@[simp] theorem Slave.listening_fr (v : Slave) :
    v.listening.fr = v.fr.seeking := rfl

@[simp] theorem Slave.listening_sstate (v : Slave) :
    v.listening.sstate = v.sstate := rfl

@[simp] theorem Slave.listening_sph (v : Slave) :
    v.listening.sph = .rx := rfl

@[simp] theorem Slave.listening_ownId (v : Slave) :
    v.listening.ownId = v.ownId := rfl

@[simp] theorem Slave.listening_afterTx (v : Slave) :
    v.listening.afterTx = v.afterTx := rfl

@[simp] theorem Slave.listening_smk (v : Slave) :
    v.listening.smk = v.smk := rfl

@[simp] theorem Slave.listening_light (v : Slave) :
    v.listening.light = v.light := rfl

@[simp] theorem Slave.listening_motorDir (v : Slave) :
    v.listening.motorDir = v.motorDir := rfl

@[simp] theorem Slave.listening_motorSpeed (v : Slave) :
    v.listening.motorSpeed = v.motorSpeed := rfl

@[simp] theorem endTick_params (inp : TickInput) (s : State) :
    (endTick inp s).params = s.params := rfl

@[simp] theorem endTick_master (inp : TickInput) (s : State) :
    (endTick inp s).master = s.master := rfl

@[simp] theorem endTick_slaves (inp : TickInput) (s : State) :
    (endTick inp s).slaves = s.slaves := rfl

@[simp] theorem endTick_scan (inp : TickInput) (s : State) :
    (endTick inp s).scan = s.scan := rfl

@[simp] theorem endTick_mailbox (inp : TickInput) (s : State) :
    (endTick inp s).mailbox = s.mailbox := rfl

@[simp] theorem endTick_extDrv (inp : TickInput) (s : State) :
    (endTick inp s).extDrv = inp.extDrv := rfl

@[simp] theorem endTick_tagDrv (inp : TickInput) (s : State) :
    (endTick inp s).tagDrv = inp.tagDrv := rfl

@[simp] theorem endTick_inputs (inp : TickInput) (s : State) :
    (endTick inp s).inputs = s.inputs.tail := rfl

@[simp] theorem endTick_receiver (inp : TickInput) (s : State) :
    (endTick inp s).receiver = .master := rfl

@[simp] theorem endTick_hostOut (inp : TickInput) (s : State) :
    (endTick inp s).hostOut = s.hostOut := rfl

end Sys2Proof.Machine
end

