-- ==== Sys2Proof/Laws/Ops.lean ====
section
/-!
SUPPORT. What the shared operations do, once: sequencing, arming, the framer's ticks, the table, the
fault action and reply handling. Later proofs cite these and do not unfold the operations.
-/

namespace Sys2Proof.Machine

section Sequencing
variable {α β : Type}

@[simp] theorem andThen_next (a : α) (f : α → Res β) :
    andThen (Host.Outcome.next a : Res α) f = f a := rfl

@[simp] theorem andThen_fault (r : Fault) (f : α → Res β) :
    andThen (Host.Outcome.fault r : Res α) f = .fault r := rfl

@[simp] theorem andThen_refused (r : Refusal) (f : α → Res β) :
    andThen (Host.Outcome.refused r : Res α) f = .refused r := rfl

/-- A sequence answers exactly when both parts do. -/
theorem andThen_eq_next {o : Res α} {f : α → Res β} {b : β} :
    andThen o f = .next b ↔ ∃ a, o = .next a ∧ f a = .next b := by
  cases o <;> simp [andThen]

/-- Sequencing is associative. -/
theorem andThen_assoc {γ : Type} (o : Res α) (f : α → Res β) (g : β → Res γ) :
    andThen (andThen o f) g = andThen o fun a => andThen (f a) g := by
  cases o <;> rfl

/-- What an answer of the first part satisfies is all the second part needs to preserve. -/
theorem andThen_keeps {P : α → Prop} {Q : β → Prop} {o : Res α} {f : α → Res β}
    (ho : ∀ a, o = .next a → P a) (hf : ∀ a b, P a → f a = .next b → Q b) {b : β}
    (h : andThen o f = .next b) : Q b := by
  obtain ⟨a, ha, hb⟩ := andThen_eq_next.1 h
  exact hf a b (ho a ha) hb

end Sequencing

section Arming

theorem Framer.armTx_idle {f : Framer} (w : Word) (h : f.fmode = .idle) :
    f.armTx w = .next (f.sending w) := by
  simp [Framer.armTx, h, Framer.sending]

theorem Framer.armTx_busy {f : Framer} (w : Word) (h : f.fmode ≠ .idle) :
    f.armTx w = .refused .armWhileBusy := by
  simp [Framer.armTx, h]

theorem Framer.armRx_idle {f : Framer} (h : f.fmode = .idle) : f.armRx = .next f.seeking := by
  simp [Framer.armRx, h, Framer.seeking]

theorem Framer.armRx_busy {f : Framer} (h : f.fmode ≠ .idle) :
    f.armRx = .refused .armWhileBusy := by
  simp [Framer.armRx, h]

theorem Framer.armTx_eq_next {f g : Framer} {w : Word} :
    f.armTx w = .next g ↔ f.fmode = .idle ∧ g = f.sending w := by
  by_cases h : f.fmode = .idle
  · simp [Framer.armTx_idle w h, h, eq_comm]
  · simp [Framer.armTx_busy w h, h]

theorem Framer.armRx_eq_next {f g : Framer} :
    f.armRx = .next g ↔ f.fmode = .idle ∧ g = f.seeking := by
  by_cases h : f.fmode = .idle
  · simp [Framer.armRx_idle h, h, eq_comm]
  · simp [Framer.armRx_busy h, h]

theorem Master.armTx_idle {m : Master} (w : Word) (h : m.fr.fmode = .idle) :
    m.armTx w = .next { m with fr := m.fr.sending w } := by
  simp [Master.armTx, Framer.armTx_idle w h]

theorem Master.armRx_idle {m : Master} (h : m.fr.fmode = .idle) :
    m.armRx = .next { m with fr := m.fr.seeking } := by
  simp [Master.armRx, Framer.armRx_idle h]

theorem Slave.reply_idle {v : Slave} (d : Byte) (h : v.fr.fmode = .idle) :
    v.reply d = .next (v.replying d) := by
  simp [Slave.reply, Framer.armTx_idle _ h, Slave.replying, replyWord]

theorem Slave.rearm_idle {v : Slave} (h : v.fr.fmode = .idle) : v.rearm = .next v.listening := by
  simp [Slave.rearm, Framer.armRx_idle h, Slave.listening]

theorem Slave.reply_eq_next {v v' : Slave} {d : Byte} :
    v.reply d = .next v' ↔ v.fr.fmode = .idle ∧ v' = v.replying d := by
  by_cases h : v.fr.fmode = .idle
  · simp [Slave.reply_idle d h, h, eq_comm]
  · simp [Slave.reply, Framer.armTx_busy _ h, h]

theorem Slave.rearm_eq_next {v v' : Slave} :
    v.rearm = .next v' ↔ v.fr.fmode = .idle ∧ v' = v.listening := by
  by_cases h : v.fr.fmode = .idle
  · simp [Slave.rearm_idle h, h, eq_comm]
  · simp [Slave.rearm, Framer.armRx_busy h, h]

end Arming

section FramerTicks

theorem Framer.txTick_other {f : Framer} (h : f.fmode ≠ .tx) : f.txTick = (f, false) := by
  simp [Framer.txTick, h]

theorem Framer.txTick_running {f : Framer} (h : f.fmode = .tx) (hk : f.txPos < 66) :
    f.txTick = ({ f with drv := txLevel f.txWord f.txPos, txPos := f.txPos + 1 }, false) := by
  simp [Framer.txTick, h, Config.packetBits, hk]

theorem Framer.txTick_last {f : Framer} (h : f.fmode = .tx) (hk : ¬ f.txPos < 66) :
    f.txTick = ({ f with drv := false, fmode := .idle, fdone := true, fstatus := .ok }, true) := by
  have : txLevel f.txWord f.txPos = false := by
    unfold txLevel
    simp [Config.packetBits]
    omega
  simp [Framer.txTick, h, Config.packetBits, hk, this]

theorem Framer.rxTick_other {f : Framer} (th : Option Nat) (b : Bool) (h : f.fmode ≠ .rx) :
    f.rxTick th b = (f, false) := by
  simp [Framer.rxTick, h]

theorem Framer.rxTick_seekHi_active {f : Framer} (th : Option Nat) (h : f.fmode = .rx)
    (hs : f.rxSub = .seekHi) : f.rxTick th true = ({ f with rxSub := .seekLo }, false) := by
  simp [Framer.rxTick, h, hs]

theorem Framer.rxTick_seekHi_idle {f : Framer} (th : Option Nat) (h : f.fmode = .rx)
    (hs : f.rxSub = .seekHi) : f.rxTick th false = f.failedDetection th := by
  simp [Framer.rxTick, h, hs]

theorem Framer.rxTick_seekLo_active {f : Framer} (th : Option Nat) (h : f.fmode = .rx)
    (hs : f.rxSub = .seekLo) : f.rxTick th true = f.failedDetection th := by
  simp [Framer.rxTick, h, hs]

theorem Framer.rxTick_seekLo_idle {f : Framer} (th : Option Nat) (h : f.fmode = .rx)
    (hs : f.rxSub = .seekLo) :
    f.rxTick th false = ({ f with rxSub := .data, rxPos := 0 }, false) := by
  simp [Framer.rxTick, h, hs]

theorem Framer.rxTick_data {f : Framer} (th : Option Nat) (b : Bool) (h : f.fmode = .rx)
    (hs : f.rxSub = .data) : f.rxTick th b = f.dataTick b := by
  simp [Framer.rxTick, h, hs]

/-- A completing receive tick is a data tick or an abort at the threshold. -/
theorem Framer.rxTick_done {f : Framer} {th : Option Nat} {b : Bool}
    (h : (f.rxTick th b).2 = true) :
    f.fmode = .rx ∧ (f.rxTick th b).1.fmode = .idle ∧
      (f.rxSub = .data ∧ f.rxPos = 63 ∧ (f.rxTick th b).1.fstatus = .ok ∨
       f.rxSub ≠ .data ∧ (f.rxTick th b).1.fstatus = .sync) := by
  unfold Framer.rxTick Framer.failedDetection Framer.dataTick at *
  by_cases hf : f.fmode = .rx
  · cases hs : f.rxSub <;> cases b <;> cases th <;>
      simp [hf, hs, Config.packetBits] at h ⊢ <;> split_ifs at h ⊢ <;> simp_all
  · simp [hf] at h

/-- An odd data tick that is the last one completes with the word as it stands. -/
theorem Framer.rxTick_lastTick {f : Framer} {w : Word} (th : Option Nat) (b : Bool)
    (h : f.lastTickOf w) : f.rxTick th b = (f.received w, true) := by
  obtain ⟨hf, hs, hp, hw⟩ := h
  simp [Framer.rxTick, Framer.dataTick, hf, hs, hp, hw, Config.packetBits, Framer.received]

end FramerTicks

section Table

theorem tabEntry_eq_some {t : List Entry} {i : Byte} {e : Entry} :
    tabEntry t i = some e ↔ (1 ≤ i.toNat ∧ i.toNat ≤ 254) ∧ t[i.toNat - 1]? = some e := by
  unfold tabEntry
  by_cases hr : 1 ≤ i.toNat ∧ i.toNat ≤ Config.maxId
  · simp only [if_pos hr]
    simp only [Config.maxId] at hr
    simp [hr]
  · simp only [if_neg hr]
    simp only [Config.maxId] at hr
    simp [hr]

@[simp] theorem setTabEntry_length (t : List Entry) (i : Byte) (e : Entry) :
    (setTabEntry t i e).length = t.length := by
  unfold setTabEntry
  split <;> simp

/-- Reading the entry just written gives it. -/
theorem tabEntry_setTabEntry_same {t : List Entry} {i : Byte} {e₀ : Entry} (e : Entry)
    (h : tabEntry t i = some e₀) : tabEntry (setTabEntry t i e) i = some e := by
  obtain ⟨hr, hg⟩ := tabEntry_eq_some.1 h
  have hl := (List.getElem?_eq_some_iff.1 hg).1
  rw [tabEntry_eq_some]
  refine ⟨hr, ?_⟩
  simp [setTabEntry, Config.maxId, hr, hl]

/-- Writing an entry leaves every other one alone. -/
theorem tabEntry_setTabEntry_other {t : List Entry} {i j : Byte} (e : Entry) (h : i ≠ j) :
    tabEntry (setTabEntry t i e) j = tabEntry t j := by
  have hne : i.toNat ≠ j.toNat := fun hc => h (BitVec.eq_of_toNat_eq hc)
  unfold tabEntry setTabEntry
  split
  · split
    · rw [List.getElem?_set_ne]
      omega
    · rfl
  · rfl

theorem mem_of_tabEntry {t : List Entry} {i : Byte} {e : Entry} (h : tabEntry t i = some e) :
    e ∈ t := by
  obtain ⟨-, hg⟩ := tabEntry_eq_some.1 h
  exact List.mem_of_getElem? hg

theorem mem_setTabEntry {t : List Entry} {i : Byte} {e x : Entry} (h : x ∈ setTabEntry t i e) :
    x ∈ t ∨ x = e := by
  unfold setTabEntry at h
  split at h
  · exact List.mem_or_eq_of_mem_set h
  · exact .inl h

theorem connectedAt_of_tabEntry {t : List Entry} {i : Byte} {e : Entry}
    (h : tabEntry t i = some e) : connectedAt t i = e.connected := by
  simp [connectedAt, h]

/-- The next connected id is connected. -/
theorem connectedAt_of_nextConn {t : List Entry} {c i : Byte} (h : nextConn t c = some i) :
    connectedAt t i = true :=
  List.find?_some h

/-- A full table has an entry for every assignable id. -/
theorem tabEntry_of_assignable {t : List Entry} {i : Byte} (hl : t.length = 254)
    (hi : assignable i = true) : ∃ e, tabEntry t i = some e := by
  have hr : 1 ≤ i.toNat ∧ i.toNat ≤ 254 := of_decide_eq_true hi
  refine ⟨t[i.toNat - 1]'(by omega), tabEntry_eq_some.2 ⟨hr, by simp⟩⟩

end Table

section Faults

theorem raiseFault_of_entry {m : Master} {e : Entry} (code : FaultCode)
    (h : tabEntry m.tab m.cursor = some e) :
    (andThen (raiseFault code m) fun m => .next m.afterReply : Res Master) =
      .next (m.faulted code) := by
  simp [raiseFault, h, Master.faulted, Master.advance, Master.afterReply]

theorem handleReply_invalid {m : Master} {e : Entry} {uid data endm c : Byte}
    (h : tabEntry m.tab m.cursor = some e) (hv : fieldsValid uid data endm c = false) :
    handleReply uid data endm c m = .next (m.faulted .checksum) := by
  simp only [handleReply, h, hv, if_true]
  exact raiseFault_of_entry .checksum h

theorem handleReply_foreign {m : Master} {e : Entry} {uid data endm c : Byte}
    (h : tabEntry m.tab m.cursor = some e) (hv : fieldsValid uid data endm c = true)
    (hu : uid ≠ m.cursor) : handleReply uid data endm c m = .next (m.faulted .protocol) := by
  simp only [handleReply, h, hv, Bool.true_eq_false, if_false, ne_eq, hu, not_false_eq_true, if_true]
  exact raiseFault_of_entry .protocol h

theorem handleReply_fault {m : Master} {e : Entry} {data endm c : Byte} {code : FaultCode}
    (h : tabEntry m.tab m.cursor = some e) (hv : fieldsValid m.cursor data endm c = true)
    (hs : stageRule data e = .error code) :
    handleReply m.cursor data endm c m = .next (m.faulted code) := by
  simp only [handleReply, h, hv, Bool.true_eq_false, if_false, ne_eq, not_true_eq_false, hs]
  exact raiseFault_of_entry code h

theorem handleReply_accepted {m : Master} {e e' : Entry} {data endm c : Byte}
    (h : tabEntry m.tab m.cursor = some e) (hv : fieldsValid m.cursor data endm c = true)
    (hs : stageRule data e = .ok e') :
    handleReply m.cursor data endm c m = .next (m.accepted e' endm) := by
  simp [handleReply, h, hv, hs, Master.accepted, Master.afterReply, Master.endTurn]

/-- What an accepted or faulted reply is: the one inversion lemma of `handleReply`. -/
theorem handleReply_eq_next {m m' : Master} {uid data endm c : Byte}
    (h : handleReply uid data endm c m = .next m') :
    ∃ e, tabEntry m.tab m.cursor = some e ∧
      ((∃ code, m' = m.faulted code) ∨
       uid = m.cursor ∧ fieldsValid uid data endm c = true ∧
         ∃ e', stageRule data e = .ok e' ∧ m' = m.accepted e' endm) := by
  cases he : tabEntry m.tab m.cursor with
  | none => simp [handleReply, he] at h
  | some e =>
    refine ⟨e, rfl, ?_⟩
    cases hv : fieldsValid uid data endm c with
    | false =>
      rw [handleReply_invalid he hv] at h
      exact .inl ⟨_, by simpa using h.symm⟩
    | true =>
      by_cases hu : uid = m.cursor
      · subst hu
        cases hs : stageRule data e with
        | error code =>
          rw [handleReply_fault he hv hs] at h
          exact .inl ⟨_, by simpa using h.symm⟩
        | ok e' =>
          rw [handleReply_accepted he hv hs] at h
          exact .inr ⟨rfl, rfl, e', rfl, by simpa using h.symm⟩
      · rw [handleReply_foreign he hv hu] at h
        exact .inl ⟨_, by simpa using h.symm⟩

end Faults

end Sys2Proof.Machine
end

