-- ==== Sys2Proof/Laws/Engines.lean ====
section
/-!
SUPPORT. What the engines' steps can do, once: a slave's packet, a received word, the mailbox step, the
decision, a scan tick and a whole tick. Each is an inversion lemma ("if it answers, then one of these")
or an equation for one case.
-/

namespace Sys2Proof.Machine

section SlaveEngine

theorem onPacket_invalid {uid cmd arg c : Byte} {r : SlaveRule} {v : Slave}
    (hv : fieldsValid uid cmd arg c = false) :
    onPacket uid cmd arg c r v = if v.sstate = .unassigned then v.backToListen else v.rearm := by
  simp [onPacket, hv]

theorem onPacket_unassigned {uid cmd arg c : Byte} {r : SlaveRule} {v : Slave}
    (hv : fieldsValid uid cmd arg c = true) (hs : v.sstate = .unassigned) :
    onPacket uid cmd arg c r v = r.unassigned v := by
  simp [onPacket, hv, hs]

theorem onPacket_pending {uid cmd arg c : Byte} {r : SlaveRule} {v : Slave}
    (hv : fieldsValid uid cmd arg c = true) (hs : v.sstate = .respondPending) :
    onPacket uid cmd arg c r v = if uid = v.ownId then r.pending v else v.rearm := by
  simp only [onPacket, hv, hs, Bool.true_eq_false, if_false, addressing]
  split_ifs <;> rfl

theorem onPacket_serving {uid cmd arg c : Byte} {r : SlaveRule} {v : Slave}
    (hv : fieldsValid uid cmd arg c = true) (hs : v.sstate = .serving) :
    onPacket uid cmd arg c r v =
      if uid = v.ownId then r.serving v
      else if uid = Config.bcastId then (r.bcast v).rearm else v.rearm := by
  simp only [onPacket, hv, hs, Bool.true_eq_false, if_false, addressing]
  split_ifs <;> rfl

theorem onPacket_standingBy {uid cmd arg c : Byte} {r : SlaveRule} {v : Slave}
    (hv : fieldsValid uid cmd arg c = true) (hs : v.sstate = .standingBy) :
    onPacket uid cmd arg c r v =
      if uid = Config.bcastId then (r.standby v).rearm else v.rearm := by
  simp [onPacket, hv, hs]

/-- Everything a slave can do with a completed word. -/
theorem onPacket_eq_next {uid cmd arg c : Byte} {r : SlaveRule} {v v' : Slave}
    (h : onPacket uid cmd arg c r v = .next v') :
    (v.sstate = .unassigned ∧ (v' = { v with sph := .listen } ∨ r.unassigned v = .next v')) ∨
    (v.sstate ≠ .unassigned ∧ v.rearm = .next v') ∨
    (v.sstate = .respondPending ∧ uid = v.ownId ∧ r.pending v = .next v') ∨
    (v.sstate = .serving ∧ uid = v.ownId ∧ r.serving v = .next v') ∨
    (v.sstate = .serving ∧ uid = Config.bcastId ∧ (r.bcast v).rearm = .next v') ∨
    (v.sstate = .standingBy ∧ uid = Config.bcastId ∧ (r.standby v).rearm = .next v') := by
  cases hv : fieldsValid uid cmd arg c with
  | false =>
    rw [onPacket_invalid hv] at h
    split_ifs at h with hs
    · exact .inl ⟨hs, .inl (by simpa [Slave.backToListen] using h.symm)⟩
    · exact .inr (.inl ⟨hs, h⟩)
  | true =>
    cases hs : v.sstate with
    | unassigned =>
      rw [onPacket_unassigned hv hs] at h
      exact .inl ⟨rfl, .inr h⟩
    | respondPending =>
      rw [onPacket_pending hv hs] at h
      split_ifs at h with hu <;> simp_all
    | serving =>
      rw [onPacket_serving hv hs] at h
      split_ifs at h with hu hb <;> simp_all
    | standingBy =>
      rw [onPacket_standingBy hv hs] at h
      split_ifs at h with hb <;> simp_all

end SlaveEngine

section Received

/-- What each packet instruction does in a slave. -/
def ruleOf : Instr → SlaveRule
  | .newDevice .. => newDeviceRule
  | .lightOn .. => commandRule (Slave.setLight true)
  | .lightOff .. => commandRule (Slave.setLight false)
  | .stop .. => commandRule (Slave.setMotor .stop 0)
  | .motorA _ arg _ => commandRule (Slave.setMotor .fwd arg)
  | .motorB _ arg _ => commandRule (Slave.setMotor .rev arg)
  | .uidByte1 .. => queryRule fun v => v.cfg.myIdent.b0
  | .uidByte2 .. => queryRule fun v => v.cfg.myIdent.b1
  | .uidByte3 .. => uidByte3Rule
  | .typeQuery uid _ _ => typeQueryRule uid
  | .unrecognised .. => queryRule fun _ => opError
  | .nop .. => commandRule id
  | .endOfTurn .. => commandRule id
  | .data .. => commandRule id
  | .error .. => commandRule id
  | .ok .. => commandRule id
  | .disconnect .. => commandRule id
  | .train .. => commandRule id
  | .station .. => commandRule id
  | .hostLight1 => commandRule id
  | .hostLight0 => commandRule id
  | .hostMotor .. => commandRule id
  | .hostBitmap => commandRule id
  | .hostEnable => commandRule id
  | .hostCancel => commandRule id
  | .hostLastFault => commandRule id

/-- A packet word is executed by its receiver, field by field. -/
theorem exec_decodeWord (w : Word) (s : State) :
    exec (decodeWord w) s =
      receive (uidOf w) (cmdOf w) (argOf w) (cksOf w) (ruleOf (decodeWord w)) s := by
  have hc : ∀ n : Nat, (cmdOf w).toNat = n → cmdOf w = BitVec.ofNat 8 n := by
    intro n hn
    rw [← hn, BitVec.ofNat_toNat, BitVec.setWidth_eq]
  unfold decodeWord
  split <;> rename_i h
  all_goals first
    | rfl
    | (rw [hc _ h]; rfl)

theorem receive_master {uid cmd arg c : Byte} {r : SlaveRule} {s : State}
    (h : s.receiver = .master) :
    receive uid cmd arg c r s =
      andThen (handleReply uid cmd arg c s.master) fun m => .next (s.setMaster m) := by
  simp [receive, h]

theorem receive_slave {uid cmd arg c : Byte} {r : SlaveRule} {s : State} {k : Nat} {v : Slave}
    (h : s.receiver = .slave k) (hk : s.slaves[k]? = some v) :
    receive uid cmd arg c r s =
      andThen (onPacket uid cmd arg c r v) fun v' => .next (s.setSlave k v') := by
  simp [receive, h, hk]

/-- A received word changes the master's registers or one slave's, and nothing else. -/
theorem receive_eq_next {uid cmd arg c : Byte} {r : SlaveRule} {s t : State}
    (h : receive uid cmd arg c r s = .next t) :
    (s.receiver = .master ∧
      ∃ m, handleReply uid cmd arg c s.master = .next m ∧ t = s.setMaster m) ∨
    (∃ k, s.receiver = .slave k ∧
      (s.slaves[k]? = none ∧ t = s ∨
       ∃ v v', s.slaves[k]? = some v ∧ onPacket uid cmd arg c r v = .next v' ∧
         t = s.setSlave k v')) := by
  cases hr : s.receiver with
  | master =>
    rw [receive_master hr, andThen_eq_next] at h
    obtain ⟨m, hm, ht⟩ := h
    exact .inl ⟨rfl, m, hm, by simpa using ht.symm⟩
  | slave k =>
    refine .inr ⟨k, rfl, ?_⟩
    cases hk : s.slaves[k]? with
    | none =>
      simp [receive, hr, hk] at h
      exact .inl ⟨rfl, h.symm⟩
    | some v =>
      rw [receive_slave hr hk, andThen_eq_next] at h
      obtain ⟨v', hv, ht⟩ := h
      exact .inr ⟨v, v', rfl, hv, by simpa using ht.symm⟩

end Received

section Decisions

/-- Everything the mailbox step can do. -/
theorem dispatchMailbox_eq_next {s t : State} (h : dispatchMailbox s = .next t) :
    (s.mailbox.valid = false ∧ t = s) ∨
    (s.mailbox.valid = true ∧
      (t = s.setMailbox { s.mailbox with valid := false } ∨
       ∃ g e, s.params.scanTarget s.mailbox.line s.mailbox.ident = some g ∧
         assignable g.dev = true ∧ tabEntry s.master.tab g.dev = some e ∧
         e.kind ≠ .disconnected ∧ e.stage = .expectAck ∧
         t = (s.setMailbox { s.mailbox with valid := false }).setMaster
           { s.master with tab := setTabEntry s.master.tab g.dev (e.withReport g) })) := by
  unfold dispatchMailbox at h
  cases hv : s.mailbox.valid with
  | false => simp [hv] at h; simp [h]
  | true =>
    refine .inr ⟨rfl, ?_⟩
    simp only [hv, if_true] at h
    cases hg : s.params.scanTarget s.mailbox.line s.mailbox.ident with
    | none => simp [hg] at h; exact .inl h.symm
    | some g =>
      simp only [hg, andThen_eq_next] at h
      obtain ⟨m, hm, ht⟩ := h
      simp only [Host.Outcome.next.injEq] at ht
      subst ht
      unfold applyReport at hm
      cases ha : assignable g.dev with
      | false => simp [ha] at hm
      | true =>
        cases he : tabEntry s.master.tab g.dev with
        | none => simp [ha, he] at hm
        | some e =>
          cases ht : e.takesReport with
          | false => simp [ha, he, ht] at hm; subst hm; exact .inl rfl
          | true =>
            simp [ha, he, ht] at hm
            subst hm
            simp [Entry.takesReport, Entry.connected] at ht
            exact .inr ⟨g, e, rfl, ha, he, ht.1, ht.2, rfl⟩

theorem masterDecide_accepting {m : Master} (h : m.mstate = .acceptingConnections) :
    masterDecide m =
      if m.enumEn then .next (decideInvite m)
      else if m.session then .next { m with mph := .gapMarker, gapCnt := 66, mkCnt := 0 }
      else if 0 < connectedCount m.tab then decidePolling { m with mstate := .polling }
      else .next { m with mph := .idle } := by
  cases he : m.enumEn <;> cases hs : m.session <;>
    simp [masterDecide, decideLoop, h, he, hs, Config.gap]
  split_ifs <;> simp_all

theorem masterDecide_polling {m : Master} (h : m.mstate = .polling) :
    masterDecide m =
      if connectedCount m.tab = 0 then
        (if m.enumEn then .next (decideInvite { m with mstate := .acceptingConnections })
         else if m.session then
           .next { m with mstate := .acceptingConnections, mph := .gapMarker, gapCnt := 66, mkCnt := 0 }
         else .next { m with mstate := .acceptingConnections, mph := .idle })
      else decidePolling m := by
  by_cases hc : connectedCount m.tab = 0
  · cases he : m.enumEn <;> cases hs : m.session <;>
      simp [masterDecide, decideLoop, h, he, hs, hc, Config.gap]
  · simp [masterDecide, decideLoop, h, hc]

theorem masterDecide_awaiting {m : Master} (h : m.mstate = .awaitingHandshakeReply) :
    masterDecide m = .fault .decisionLoop := by
  simp [masterDecide, decideLoop, h]

/-- Everything a decision in `Polling` with a connected entry can do. -/
theorem decidePolling_eq_next {m m' : Master} (h : decidePolling m = .next m') :
    m.fr.fmode = .idle ∧
    ((m.bcValid = true ∧
        m' = { m with fr := m.fr.sending (bcastWord m.bcCmd m.bcArg), bcValid := false,
                      mph := .txBcast }) ∨
     (m.bcValid = false ∧ m.enumEn = true ∧
        m' = { m with fr := m.fr.sending announceWord, mph := .txAnnounce }) ∨
     (m.bcValid = false ∧ m.enumEn = false ∧
        ∃ e, tabEntry m.tab m.repairCursor.cursor = some e ∧
          m' = { m with fr := m.fr.sending (pollWord m.repairCursor.cursor e),
                        cursor := m.repairCursor.cursor, mph := .txPoll,
                        mstate := .awaitingHandshakeReply })) := by
  unfold decidePolling armPoll Master.armTx at h
  by_cases hf : m.fr.fmode = .idle
  · refine ⟨hf, ?_⟩
    cases hb : m.bcValid with
    | true =>
      simp [hb, Framer.armTx_idle _ hf] at h
      exact .inl ⟨rfl, h.symm⟩
    | false =>
      cases hn : m.enumEn with
      | true =>
        simp [hb, hn, Framer.armTx_idle _ hf] at h
        exact .inr (.inl ⟨rfl, rfl, h.symm⟩)
      | false =>
        cases he : tabEntry m.repairCursor.tab m.repairCursor.cursor with
        | none => simp [hb, hn, he] at h
        | some e =>
          have hf' : m.repairCursor.fr.fmode = .idle := hf
          simp [hb, hn, he, Framer.armTx_idle _ hf'] at h
          exact .inr (.inr ⟨rfl, rfl, e, he, by rw [← h]; simp [Master.repairCursor, hb, hn]⟩)
  · exfalso
    cases hb : m.bcValid <;> cases hn : m.enumEn <;>
      simp [hb, hn, Framer.armTx_busy _ hf] at h
    cases he : tabEntry m.repairCursor.tab m.repairCursor.cursor with
    | none => simp [he] at h
    | some e =>
      have hf' : m.repairCursor.fr.fmode ≠ .idle := hf
      simp [he, Framer.armTx_busy _ hf'] at h

end Decisions

section Ticks

/-- Every drive register of the scan lines is written on every tick; their number stays. -/
@[simp] theorem scanTick_length (n : Nat) (b : Bool) (c : Scan) (mb : Mailbox) :
    (scanTick n b c mb).1.scDrv.length = c.scDrv.length := by
  unfold scanTick report Scan.finish Scan.takeBit
  cases c.scPh <;> simp <;> split_ifs <;> simp

/-- Everything a tick can do: the parameters are in range, and its parts answer in order. -/
theorem tick_eq_next {s t : State} (h : tick s = .next t) :
    s.params.refusal = none ∧ ∃ s1 s2,
      masterStep s.dataLevel s.nextInput (s.setHostOut none) = .next s1 ∧
      slaveSteps s.dataLevel s.nextInput (List.range s.slaves.length) s1 = .next s2 ∧
      t = endTick s.nextInput (scanStep (s.scanLevel s.scan.scIdx) s.nextInput s2) := by
  unfold tick at h
  cases hr : s.params.refusal with
  | some r => simp [hr] at h
  | none =>
    simp only [hr, andThen_eq_next] at h
    obtain ⟨s1, h1, s2, h2, ht⟩ := h
    exact ⟨rfl, s1, s2, h1, h2, by simpa using ht.symm⟩

/-- The slaves' steps may be cut anywhere. -/
theorem slaveSteps_append (lv : Bool) (inp : TickInput) (ks js : List Nat) (s : State) :
    slaveSteps lv inp (ks ++ js) s = andThen (slaveSteps lv inp ks s) (slaveSteps lv inp js) := by
  induction ks generalizing s with
  | nil => rfl
  | cons k ks ih =>
    simp only [List.cons_append, slaveSteps, andThen_assoc]
    congr 1
    funext s'
    exact ih s'

end Ticks

end Sys2Proof.Machine
end

