-- ==== Sys2Proof/Laws/PerInstr.lean ====
section
/-!
SUPPORT. Laws of instructions as syntax, one lemma a constructor.
-/

namespace Sys2Proof.Laws

/-- A packet is four bytes (30_encoding.md R99); a host command is one character, the motor command four
(45_dispatcher.md R281). -/
def WireLength.Statement (i : Instr) : Prop :=
  (encode i).length = (match i with
    | .hostMotor .. => 4
    | i => if i.source = .line then 4 else 1)

theorem WireLength.nop (uid arg cks : Byte) :
    WireLength.Statement (.nop uid arg cks) := rfl

theorem WireLength.endOfTurn (uid arg cks : Byte) :
    WireLength.Statement (.endOfTurn uid arg cks) := rfl

theorem WireLength.data (uid arg cks : Byte) :
    WireLength.Statement (.data uid arg cks) := rfl

theorem WireLength.error (uid arg cks : Byte) :
    WireLength.Statement (.error uid arg cks) := rfl

theorem WireLength.ok (uid arg cks : Byte) :
    WireLength.Statement (.ok uid arg cks) := rfl

theorem WireLength.newDevice (uid arg cks : Byte) :
    WireLength.Statement (.newDevice uid arg cks) := rfl

theorem WireLength.disconnect (uid arg cks : Byte) :
    WireLength.Statement (.disconnect uid arg cks) := rfl

theorem WireLength.lightOn (uid arg cks : Byte) :
    WireLength.Statement (.lightOn uid arg cks) := rfl

theorem WireLength.lightOff (uid arg cks : Byte) :
    WireLength.Statement (.lightOff uid arg cks) := rfl

theorem WireLength.stop (uid arg cks : Byte) :
    WireLength.Statement (.stop uid arg cks) := rfl

theorem WireLength.motorA (uid arg cks : Byte) :
    WireLength.Statement (.motorA uid arg cks) := rfl

theorem WireLength.motorB (uid arg cks : Byte) :
    WireLength.Statement (.motorB uid arg cks) := rfl

theorem WireLength.uidByte1 (uid arg cks : Byte) :
    WireLength.Statement (.uidByte1 uid arg cks) := rfl

theorem WireLength.uidByte2 (uid arg cks : Byte) :
    WireLength.Statement (.uidByte2 uid arg cks) := rfl

theorem WireLength.uidByte3 (uid arg cks : Byte) :
    WireLength.Statement (.uidByte3 uid arg cks) := rfl

theorem WireLength.typeQuery (uid arg cks : Byte) :
    WireLength.Statement (.typeQuery uid arg cks) := rfl

theorem WireLength.train (uid arg cks : Byte) :
    WireLength.Statement (.train uid arg cks) := rfl

theorem WireLength.station (uid arg cks : Byte) :
    WireLength.Statement (.station uid arg cks) := rfl

theorem WireLength.unrecognised (uid cmd arg cks : Byte) :
    WireLength.Statement (.unrecognised uid cmd arg cks) := rfl

theorem WireLength.hostLight1 :
    WireLength.Statement (.hostLight1) := rfl

theorem WireLength.hostLight0 :
    WireLength.Statement (.hostLight0) := rfl

theorem WireLength.hostMotor (dir : BitVec 4) (speed : Byte) :
    WireLength.Statement (.hostMotor dir speed) := rfl

theorem WireLength.hostBitmap :
    WireLength.Statement (.hostBitmap) := rfl

theorem WireLength.hostEnable :
    WireLength.Statement (.hostEnable) := rfl

theorem WireLength.hostCancel :
    WireLength.Statement (.hostCancel) := rfl

theorem WireLength.hostLastFault :
    WireLength.Statement (.hostLastFault) := rfl

end Sys2Proof.Laws
end

