-- ==== Sys2Proof/Laws/Table.lean ====
section
/-!
SUPPORT. The derived functions of the device table (10_state.md R48): each depends only on which entries
are connected, and what each answers.
-/

namespace Sys2Proof.Machine

/-- Writing an entry that is connected when the old one is leaves what is connected alone. -/
theorem setTabEntry_map_connected {t : List Entry} {i : Byte} {e e' : Entry}
    (h : tabEntry t i = some e) (hc : e'.connected = e.connected) :
    (setTabEntry t i e').map Entry.connected = t.map Entry.connected := by
  obtain ⟨hr, hg⟩ := tabEntry_eq_some.1 h
  have hl := (List.getElem?_eq_some_iff.1 hg)
  obtain ⟨hlt, hge⟩ := hl
  unfold setTabEntry
  split
  · rw [List.map_set, hc]
    apply List.ext_getElem (by simp)
    intro j h1 h2
    rw [List.getElem_set]
    split
    · subst_vars; simp
    · rfl
  · rfl

/-- What is connected decides `connectedAt`. -/
theorem connectedAt_eq_of_map {t t' : List Entry}
    (h : t'.map Entry.connected = t.map Entry.connected) (i : Byte) :
    connectedAt t' i = connectedAt t i := by
  have hg : ∀ j : Nat, (t'[j]?).map Entry.connected = (t[j]?).map Entry.connected := by
    intro j; rw [← List.getElem?_map, ← List.getElem?_map, h]
  unfold connectedAt tabEntry
  split_ifs
  · have := hg (i.toNat - 1)
    cases h1 : t'[i.toNat-1]? <;> cases h2 : t[i.toNat-1]? <;> simp_all
  · rfl

/-- What is connected decides `connected_count`. -/
theorem connectedCount_eq_of_map {t t' : List Entry}
    (h : t'.map Entry.connected = t.map Entry.connected) :
    connectedCount t' = connectedCount t := by
  have : ∀ l : List Entry, l.countP Entry.connected = (l.map Entry.connected).countP id := by
    intro l; rw [List.countP_map]; rfl
  unfold connectedCount; rw [this, this, h]

/-- What is connected decides `lowest_free`. -/
theorem lowestFree_eq_of_map {t t' : List Entry}
    (h : t'.map Entry.connected = t.map Entry.connected) :
    lowestFree t' = lowestFree t := by
  have : ∀ l : List Entry, (l.findIdx? fun e => !e.connected) =
      ((l.map Entry.connected).findIdx? fun b => !b) := by
    intro l; rw [List.findIdx?_map]; rfl
  unfold lowestFree; rw [this, this, h]

/-- A connected entry counts. -/
theorem connectedCount_pos {t : List Entry} {i : Byte} (h : connectedAt t i = true) : 0 < connectedCount t := by
  unfold connectedAt at h
  cases he : tabEntry t i with
  | none => simp [he] at h
  | some e =>
    simp [he] at h
    exact List.countP_pos_iff.2 ⟨e, mem_of_tabEntry he, h⟩

/-- Where anything is connected in a table of 254 entries, the next connected id exists. -/
theorem nextConn_isSome {t : List Entry} {c : Byte} (hl : t.length = 254) (h : connectedCount t ≠ 0) :
    ∃ i, nextConn t c = some i := by
  cases hn : nextConn t c with
  | some i => exact ⟨i, rfl⟩
  | none =>
    exfalso
    obtain ⟨e, he, hc⟩ := List.countP_pos_iff.1 (Nat.pos_of_ne_zero h)
    obtain ⟨j, hj, rfl⟩ := List.getElem_of_mem he
    have hall := List.find?_eq_none.1 hn
    have hk : ((j + 254 - c.toNat % 254) % 254) < 254 := Nat.mod_lt _ (by norm_num)
    have := hall (cyclicId c ((j + 254 - c.toNat % 254) % 254))
      (List.mem_map.2 ⟨_, List.mem_range.2 hk, rfl⟩)
    apply this
    have hid : (cyclicId c ((j + 254 - c.toNat % 254) % 254)).toNat = j + 1 := by
      simp only [cyclicId, Config.maxId, BitVec.toNat_ofNat]
      omega
    unfold connectedAt
    have : tabEntry t (cyclicId c ((j + 254 - c.toNat % 254) % 254)) = some t[j] := by
      rw [tabEntry_eq_some, hid]
      refine ⟨⟨by omega, by omega⟩, by simp⟩
    rw [this]; exact hc

/-- A connected id is assignable. -/
theorem assignable_of_connectedAt {t : List Entry} {i : Byte} (h : connectedAt t i = true) :
    assignable i = true := by
  unfold connectedAt at h
  cases he : tabEntry t i with
  | none => simp [he] at h
  | some e => exact decide_eq_true (tabEntry_eq_some.1 he).1

/-- The lowest free id is an id, and its entry is disconnected. -/
theorem lowestFree_eq_some {t : List Entry} {i : Byte} (hl : t.length = 254)
    (h : lowestFree t = some i) :
    assignable i = true ∧ ∃ e, tabEntry t i = some e ∧ e.connected = false := by
  unfold lowestFree at h
  rw [Option.map_eq_some_iff] at h
  obtain ⟨j, hj, rfl⟩ := h
  rw [List.findIdx?_eq_some_iff_getElem] at hj
  obtain ⟨hlt, h1, -⟩ := hj
  have hid : (BitVec.ofNat 8 (j+1)).toNat = j + 1 := by simp; omega
  refine ⟨decide_eq_true (by rw [hid]; simp [Config.maxId]; omega), t[j], ?_,
    by simpa using h1⟩
  rw [tabEntry_eq_some, hid]
  exact ⟨⟨by omega, by omega⟩, by simp⟩

end Sys2Proof.Machine
end

