-- ==== Sys2Proof/Tests/Slice0.lean ====
section
/-!
SUPPORT. The tests of the model and the witnesses of the statements. Every expected value is one the spec
gives: the words and results of 95_test_vectors.md (named in each comment) or of the rule cited.
-/

namespace Sys2Proof.Tests

open Sys2Proof Sys2Proof.Machine

/-! ### Well-formedness: the one check, with a term it refuses -/

/-- 30_encoding.md R102: 0x05 is recognised, so it is no unrecognised row. -/
theorem test_wf_refuses_recognised_opcode : (Instr.unrecognised 3 0x05 0 0xFB).wf = false := by decide
/-- R102: 0x11 is the last recognised opcode and 0x12 the first unrecognised one. -/
theorem test_wf_boundary :
    (Instr.unrecognised 3 0x11 0 0).wf = false ∧ (Instr.unrecognised 3 0x12 0 0).wf = true := by decide

/-! ### Decoding: the words of 95_test_vectors.md 2.6 and the characters of 45_dispatcher.md R281 -/

theorem test_decode_nop : decodeWord 0xBC400003 = .nop 3 0x40 0xBC := by decide
theorem test_decode_end_of_turn : decodeWord 0xBD400103 = .endOfTurn 3 0x40 0xBD := by decide
theorem test_decode_data : decodeWord 0xBE400203 = .data 3 0x40 0xBE := by decide
theorem test_decode_error : decodeWord 0xBF400303 = .error 3 0x40 0xBF := by decide
theorem test_decode_ok : decodeWord 0xB8400403 = .ok 3 0x40 0xB8 := by decide
theorem test_decode_new_device : decodeWord 0x050005FF = .newDevice 255 0 0x05 := by decide
theorem test_decode_disconnect : decodeWord 0xBA400603 = .disconnect 3 0x40 0xBA := by decide
theorem test_decode_light_on : decodeWord 0xFB000703 = .lightOn 3 0 0xFB := by decide
theorem test_decode_light_off : decodeWord 0x080008FF = .lightOff 255 0 0x08 := by decide
theorem test_decode_stop : decodeWord 0x090009FF = .stop 255 0 0x09 := by decide
theorem test_decode_motor_a : decodeWord 0x8A800AFF = .motorA 255 0x80 0x8A := by decide
theorem test_decode_motor_b : decodeWord 0xB3400B07 = .motorB 7 0x40 0xB3 := by decide
theorem test_decode_uid_byte_1 : decodeWord 0xF2000C01 = .uidByte1 1 0 0xF2 := by decide
theorem test_decode_uid_byte_2 : decodeWord 0xF3000D01 = .uidByte2 1 0 0xF3 := by decide
theorem test_decode_uid_byte_3 : decodeWord 0xF0000E01 = .uidByte3 1 0 0xF0 := by decide
theorem test_decode_type_query : decodeWord 0xF1000F01 = .typeQuery 1 0 0xF1 := by decide
theorem test_decode_train : decodeWord 0xEF011001 = .train 1 1 0xEF := by decide
theorem test_decode_station : decodeWord 0xEE011101 = .station 1 1 0xEE := by decide
theorem test_decode_unrecognised :
    decodeWord 0xDA002005 = .unrecognised 5 0x20 0 0xDA ∧
    decodeWord 0xAE401203 = .unrecognised 3 0x12 0x40 0xAE ∧
    decodeWord 0x4340FF03 = .unrecognised 3 0xFF 0x40 0x43 := by decide
/-- `1`, `0`, `g`, `c`, `r`, `l`. -/
theorem test_decode_host :
    decode .host [0x31] = .ok .hostLight1 ∧ decode .host [0x30] = .ok .hostLight0 ∧
    decode .host [0x67] = .ok .hostBitmap ∧ decode .host [0x63] = .ok .hostEnable ∧
    decode .host [0x72] = .ok .hostCancel ∧ decode .host [0x6C] = .ok .hostLastFault := by decide
/-- `m`, direction 1, speed 0x40 (vector D8), and both cases of a hex letter. -/
theorem test_decode_host_motor :
    decode .host [0x6D, 0x31, 0x34, 0x30] = .ok (.hostMotor 1 0x40) ∧
    decode .host [0x6D, 0x30, 0x41, 0x66] = .ok (.hostMotor 0 0xAF) := by decide
/-- The record of a packet is `{uid, cmd, arg, checksum}`, the first field first (20_memory.md R66). -/
theorem test_decode_record : decode .line [0x03, 0x07, 0x00, 0xFB] = .ok (.lightOn 3 0 0xFB) := by
  decide
theorem test_decode_refuses :
    decode .line [0x03, 0x07, 0x00] = .error .packetLength ∧
    decode .line [0x03, 0x07, 0x00, 0xFB, 0x00] = .error .packetLength ∧
    decode .host [0x32] = .error .hostCommand ∧ decode .host [] = .error .hostCommand ∧
    decode .host [0x6D, 0x31, 0x34] = .error .hostCommand ∧
    decode .host [0x6D, 0x31, 0x34, 0x47] = .error .hexDigit := by decide
theorem test_encode_light_on : encode (.lightOn 3 0 0xFB) = [0x03, 0x07, 0x00, 0xFB] := by decide
/-- The table's own pattern of a row, checksum byte and fields 0. -/
theorem test_decode_table_word : decodeTableWord 32 0x0B00 = some (.motorB 0 0 0) := by decide

/-! ### The checksum: vectors K1 to K6 -/

theorem test_pack :
    pack 3 0x07 0 = 0xFB000703 ∧ pack 255 0x05 0 = 0x050005FF ∧ pack 1 0x0F 0 = 0xF1000F01 ∧
    pack 1 0x10 0x01 = 0xEF011001 ∧ pack 255 0x0B 0x40 = 0x4B400BFF := by decide
theorem test_valid :
    wordValid 0xFB000602 = true ∧ wordValid 0xFA000702 = true ∧ wordValid 0x000000FF = true ∧
    wordValid 0x00FFFFFF = true ∧ wordValid 0xFF000000 = true ∧
    wordValid 0xFB000702 = false ∧ wordValid 0x7B000703 = false ∧ wordValid 0 = false ∧
    wordValid 0xFFFFFFFF = false := by decide

/-! ### Small states -/

/-- `SCAN_MAP` of 95_test_vectors.md 2.8, with `TH = 2`. -/
def params : Params :=
  { checksumOn := true, identLen := 3, threshold := some 2, masters := 1, numScan := 2,
    scanMap := [{ line := 0, ident := 0x0A,
                  target := { dev := 3, cmd := opLightOn, arg := 0, ff := false } },
                { line := 1, ident := 0x0A,
                  target := { dev := 3, cmd := opLightOff, arg := 0, ff := true } }] }

/-- A system in reset with these parameters and slaves. -/
def system (vs : List Slave) : State :=
  { params := params, master := Master.reset, slaves := vs, scan := Scan.reset 2,
    mailbox := Mailbox.reset, extDrv := false, tagDrv := [], inputs := [], receiver := .master,
    hostOut := none }

/-- The slave of 95_test_vectors.md 2.6, its word just complete. -/
def slave3 (st : SState) : Slave :=
  { Slave.reset { myType := 0x10, myIdent := ⟨0x41, 0x42, 0x43⟩ } with
    sstate := st, sph := .rx, ownId := 3, light := true, motorDir := .fwd, motorSpeed := 0x55 }

/-- The system in which that slave's word is interpreted. -/
def heard (v : Slave) : State := { system [v] with receiver := .slave 0 }

/-- Slave 0 after an outcome. -/
def slaveOf (o : Host.Outcome State Fault Refusal) : Option Slave :=
  match o with
  | .next t => t.slaves[0]?
  | .fault _ => none
  | .refused _ => none

/-- The reply slave 0 has armed, with its actuators. -/
def replyOf (o : Host.Outcome State Fault Refusal) : Option (Word × Bool × MotorDir × Byte) :=
  match slaveOf o with
  | some v => if v.sph = .tx then some (v.fr.txWord, v.light, v.motorDir, v.motorSpeed) else none
  | none => none

/-- The actuators of slave 0 where it armed no reply. -/
def quietOf (o : Host.Outcome State Fault Refusal) : Option (Bool × MotorDir × Byte) :=
  match slaveOf o with
  | some v => if v.sph = .rx ∧ v.fr.fmode = .rx then some (v.light, v.motorDir, v.motorSpeed) else none
  | none => none

/-! ### The packet instructions: 95_test_vectors.md 2.6, addressed and broadcast -/

theorem test_nop : replyOf (exec (decodeWord 0xBC400003) (heard (slave3 .serving))) =
    some (0xF9010403, true, .fwd, 0x55) := by decide
theorem test_end_of_turn : replyOf (exec (decodeWord 0xBD400103) (heard (slave3 .serving))) =
    some (0xF9010403, true, .fwd, 0x55) := by decide
theorem test_data : replyOf (exec (decodeWord 0xBE400203) (heard (slave3 .serving))) =
    some (0xF9010403, true, .fwd, 0x55) := by decide
theorem test_error : replyOf (exec (decodeWord 0xBF400303) (heard (slave3 .serving))) =
    some (0xF9010403, true, .fwd, 0x55) := by decide
theorem test_ok : replyOf (exec (decodeWord 0xB8400403) (heard (slave3 .serving))) =
    some (0xF9010403, true, .fwd, 0x55) := by decide
theorem test_disconnect : replyOf (exec (decodeWord 0xBA400603) (heard (slave3 .serving))) =
    some (0xF9010403, true, .fwd, 0x55) := by decide
theorem test_train : replyOf (exec (decodeWord 0xAC401003) (heard (slave3 .serving))) =
    some (0xF9010403, true, .fwd, 0x55) := by decide
theorem test_station : replyOf (exec (decodeWord 0xAD401103) (heard (slave3 .serving))) =
    some (0xF9010403, true, .fwd, 0x55) := by decide
theorem test_unrecognised : replyOf (exec (decodeWord 0xAE401203) (heard (slave3 .serving))) =
    some (0xFE010303, true, .fwd, 0x55) := by decide
theorem test_unrecognised_broadcast : quietOf (exec (decodeWord 0xBF40FFFF) (heard (slave3 .serving))) =
    some (true, .fwd, 0x55) := by decide
theorem test_light_on : replyOf (exec (decodeWord 0xFB000703)
    (heard { slave3 .serving with light := false })) = some (0xF9010403, true, .fwd, 0x55) := by decide
theorem test_light_on_pending : replyOf (exec (decodeWord 0xBB400703)
    (heard { slave3 .respondPending with light := false })) =
    some (0xF9010403, false, .fwd, 0x55) := by decide
theorem test_light_off : replyOf (exec (decodeWord 0xB4400803) (heard (slave3 .serving))) =
    some (0xF9010403, false, .fwd, 0x55) := by decide
theorem test_light_off_broadcast : quietOf (exec (decodeWord 0x484008FF) (heard (slave3 .serving))) =
    some (false, .fwd, 0x55) := by decide
theorem test_stop : replyOf (exec (decodeWord 0xB5400903) (heard (slave3 .serving))) =
    some (0xF9010403, true, .stop, 0) := by decide
theorem test_stop_broadcast : quietOf (exec (decodeWord 0x494009FF) (heard (slave3 .serving))) =
    some (true, .stop, 0) := by decide
theorem test_motor_a : replyOf (exec (decodeWord 0xB6400A03) (heard (slave3 .serving))) =
    some (0xF9010403, true, .fwd, 0x40) := by decide
theorem test_motor_b : replyOf (exec (decodeWord 0xB7400B03) (heard (slave3 .serving))) =
    some (0xF9010403, true, .rev, 0x40) := by decide
theorem test_motor_b_broadcast : quietOf (exec (decodeWord 0x4B400BFF) (heard (slave3 .serving))) =
    some (true, .rev, 0x40) := by decide
theorem test_uid_byte_1 : replyOf (exec (decodeWord 0xB0400C03) (heard (slave3 .serving))) =
    some (0xBC014103, true, .fwd, 0x55) := by decide
theorem test_uid_byte_2 : replyOf (exec (decodeWord 0xB1400D03) (heard (slave3 .respondPending))) =
    some (0xBF014203, true, .fwd, 0x55) := by decide
theorem test_uid_byte_3 : replyOf (exec (decodeWord 0xB2400E03) (heard (slave3 .serving))) =
    some (0xBE014303, true, .fwd, 0x55) := by decide
theorem test_uid_byte_3_pending :
    (slaveOf (exec (decodeWord 0xB2400E03) (heard (slave3 .respondPending)))).map Slave.afterTx =
      some .serving := by decide
theorem test_type_query : replyOf (exec (decodeWord 0xB3400F03) (heard (slave3 .serving))) =
    some (0xED011003, true, .fwd, 0x55) := by decide
/-- V2 and V4: the assignment of id 1, and a `TYPE-QUERY` whose `uid` is no id. -/
theorem test_type_query_assigns :
    ((slaveOf (exec (decodeWord 0xF1000F01) (heard { slave3 .unassigned with ownId := 0 }))).map
      fun v => (v.ownId, v.sstate, v.fr.txWord)) = some (1, .respondPending, 0xEF011001) ∧
    ((slaveOf (exec (decodeWord 0x0F000FFF) (heard { slave3 .unassigned with ownId := 0 }))).map
      fun v => (v.ownId, v.sstate, v.sph)) = some (0, .unassigned, .listen) := by decide
theorem test_new_device :
    ((slaveOf (exec (decodeWord 0xB9400503) (heard (slave3 .serving)))).map
      fun v => (v.sstate, v.afterTx, v.fr.txWord)) = some (.serving, .standingBy, 0xF9010403) := by
  decide
/-- The broadcast form, and V8: the third marker. -/
theorem test_new_device_broadcast :
    ((slaveOf (exec (decodeWord 0x454005FF) (heard (slave3 .serving)))).map
      fun v => (v.sstate, v.smk)) = some (.standingBy, 0) ∧
    ((slaveOf (exec (decodeWord 0x050005FF) (heard { slave3 .standingBy with smk := 2 }))).map
      fun v => (v.sstate, v.smk)) = some (.serving, 0) := by decide
/-- V6, V7, V9: a foreign packet, an invalid word, a packet to a slave that stands by. -/
theorem test_dropped :
    quietOf (exec (decodeWord 0xF3000804) (heard (slave3 .serving))) = some (true, .fwd, 0x55) ∧
    quietOf (exec (decodeWord 0xFB000702) (heard (slave3 .serving))) = some (true, .fwd, 0x55) ∧
    quietOf (exec (decodeWord 0xFB000703) (heard (slave3 .standingBy))) =
      some (true, .fwd, 0x55) := by decide

/-! ### Replies: 95_test_vectors.md 2.5 -/

/-- A connected entry in some stage. -/
def entry (st : Stage) : Entry :=
  { Entry.reset with kind := .train, stage := st, pendValid := true, pendCmd := opLightOn }

/-- Entries 5 (polled) and 9 are connected; the reply is complete. -/
def polled (e : Entry) : State :=
  { system [] with
    master := { Master.reset with
      cursor := 5, session := false, enumEn := false, mstate := .awaitingHandshakeReply,
      mph := .rxReply
      tab := setTabEntry (setTabEntry Master.reset.tab 9 { entry .expectAck with pendValid := false }) 5 e } }

/-- The polled entry, the cursor and the last fault after an outcome. -/
def masterOf (o : Host.Outcome State Fault Refusal) : Option (Option Entry × Byte × FaultCode) :=
  match o with
  | .next t => some (tabEntry t.master.tab 5, t.master.cursor, t.master.lastFault)
  | .fault _ => none
  | .refused _ => none

/-- H1 and H2. -/
theorem test_reply_type :
    masterOf (exec (decodeWord 0xEB011005) (polled Entry.assigned)) =
      some (some { Entry.assigned with kind := .train, stage := .expectIdentityByte0,
                                       pendValid := true, pendCmd := 0x0C }, 9, .none) ∧
    masterOf (exec (decodeWord 0xEB001105) (polled Entry.assigned)) =
      some (some { Entry.assigned with kind := .station, stage := .expectIdentityByte0,
                                       pendValid := true, pendCmd := 0x0C }, 5, .none) := by
  decide +kernel
/-- H4 and H5. -/
theorem test_reply_identity :
    masterOf (exec (decodeWord 0x62019905) (polled (entry .expectIdentityByte1))) =
      some (some { entry .expectIdentityByte2 with identity := ⟨0, 0x99, 0⟩, pendCmd := 0x0E }, 9,
        .none) ∧
    masterOf (exec (decodeWord 0xFD010605) (polled (entry .expectIdentityByte2))) =
      some (some { entry .expectAck with identity := ⟨0, 0, 0x06⟩, pendValid := false }, 9, .none) := by
  decide +kernel
/-- H6, H8 and H9. -/
theorem test_reply_ack :
    masterOf (exec (decodeWord 0xFF010405) (polled (entry .expectAck))) =
      some (some { entry .expectAck with pendValid := false }, 9, .none) ∧
    masterOf (exec (decodeWord 0xFB010005) (polled (entry .expectAck))) =
      some (some Entry.reset, 9, .protocol) ∧
    masterOf (exec (decodeWord 0xF8010305) (polled (entry .expectAck))) =
      some (some Entry.reset, 9, .protocol) := by decide +kernel
/-- H10 and H11. -/
theorem test_reply_any :
    masterOf (exec (decodeWord 0xFB010005) (polled (entry .expectAny))) =
      some (some { entry .expectAck with pendValid := false }, 9, .none) ∧
    masterOf (exec (decodeWord 0xFD010605) (polled (entry .expectAny))) =
      some (some Entry.reset, 9, .disconnect) := by decide +kernel
/-- H13 and H14. -/
theorem test_reply_invalid :
    masterOf (exec (decodeWord 0xFC010406) (polled (entry .expectAck))) =
      some (some Entry.reset, 9, .protocol) ∧
    masterOf (exec (decodeWord 0xFE010405) (polled (entry .expectAck))) =
      some (some Entry.reset, 9, .checksum) := by decide +kernel

/-! ### Host commands: 95_test_vectors.md 2.8 -/

/-- The broadcast slot and the enable bit after an outcome. -/
def slotOf (o : Host.Outcome State Fault Refusal) : Option (Bool × Byte × Byte × Bool) :=
  match o with
  | .next t => some (t.master.bcValid, t.master.bcCmd, t.master.bcArg, t.master.enumEn)
  | .fault _ => none
  | .refused _ => none

theorem test_host_light :
    slotOf (exec .hostLight1 (system [])) = some (true, 0x07, 0, true) ∧
    slotOf (exec .hostLight0 (system [])) = some (true, 0x08, 0, true) := by decide
/-- D7 to D9. -/
theorem test_host_motor :
    slotOf (exec (.hostMotor 0 0x80) (system [])) = some (true, 0x0A, 0x80, true) ∧
    slotOf (exec (.hostMotor 1 0x40) (system [])) = some (true, 0x0B, 0x40, true) ∧
    slotOf (exec (.hostMotor 2 0x40) (system [])) = some (false, 0, 0, true) := by decide
theorem test_host_enable :
    slotOf (exec .hostCancel (system [])) = some (false, 0, 0, false) ∧
    slotOf (exec .hostEnable
      { system [] with master := { Master.reset with enumEn := false } }) =
        some (false, 0, 0, true) := by decide
/-- D11: entries 1, 32, 33 and 254 are connected. -/
theorem test_host_bitmap :
    ({ Master.reset with
       tab := setTabEntry (setTabEntry (setTabEntry (setTabEntry Master.reset.tab 1 Entry.assigned) 32
         Entry.assigned) 33 Entry.assigned) 254 Entry.assigned } : Master).bitmapWords =
      [0x2, 0x3, 0, 0, 0, 0, 0, 0x40000000] := by decide +kernel
/-- D12. -/
theorem test_host_last_fault :
    (match exec .hostLastFault
       { system [] with master := { Master.reset with lastFault := .protocol } } with
     | .next t => (t.hostOut, t.master.lastFault)
     | .fault _ => (none, .none)
     | .refused _ => (none, .none)) = (some (.lastFault 2), .protocol) := by decide

/-! ### Engines: 95_test_vectors.md 2.4, 2.7, 2.8 -/

/-- M7 and M8: the cursor repair and its wrap. -/
theorem test_next_conn :
    nextConn (setTabEntry (setTabEntry Master.reset.tab 2 (entry .expectAck)) 200 (entry .expectAck)) 7 =
      some 200 ∧
    nextConn (setTabEntry (setTabEntry Master.reset.tab 2 (entry .expectAck)) 200 (entry .expectAck)) 254 =
      some 2 ∧
    nextConn Master.reset.tab 7 = none := by decide +kernel
/-- M6: ids 1 and 3 are connected. -/
theorem test_lowest_free :
    lowestFree (setTabEntry (setTabEntry Master.reset.tab 1 (entry .expectAck)) 3 (entry .expectAck)) =
      some 2 := by decide +kernel
/-- C1 and C4: a tag on line 0 with check bit 1, and with check bit 0. -/
theorem test_scan_tag :
    ((scanWithTag 2)^[12] ((Scan.reset 2, Mailbox.reset), ⟨0x0A, true, 0⟩, false)).1 =
      ({ Scan.reset 2 with scIdx := 1, scK := 8, scVal := 0x0A, cache := [0x0A, 0] },
       { valid := true, line := 0, ident := 0x0A }) ∧
    ((scanWithTag 2)^[12] ((Scan.reset 2, Mailbox.reset), ⟨0x0A, false, 0⟩, false)).1.2 =
      Mailbox.reset := by decide +kernel
/-- A report on a line, with entry 3 as given. -/
def reported (line : Nat) (e : Entry) : State :=
  { system [] with
    master := { Master.reset with tab := setTabEntry Master.reset.tab 3 e }
    mailbox := { valid := true, line := line, ident := 0x0A } }

/-- The mailbox flag and entry 3 after an outcome. -/
def entry3Of (o : Host.Outcome State Fault Refusal) : Option (Bool × Option Entry) :=
  match o with
  | .next t => some (t.mailbox.valid, tabEntry t.master.tab 3)
  | .fault _ => none
  | .refused _ => none

/-- D2 and D3: entry 3 takes the report in `ExpectAck` only. -/
theorem test_dispatch :
    entry3Of (dispatchMailbox (reported 1 { entry .expectAck with pendValid := false })) =
      some (false, some { entry .expectAny with pendCmd := opLightOff }) ∧
    entry3Of (dispatchMailbox (reported 0 (entry .expectIdentityByte1))) =
      some (false, some (entry .expectIdentityByte1)) := by decide +kernel

/-! ### Whole ticks -/

/-- The refusal of an outcome. -/
def refusalOf (o : Host.Outcome State Fault Refusal) : Option Refusal :=
  match o with
  | .refused r => some r
  | .next _ => none
  | .fault _ => none

/-- M1 and 70_reset_and_hazards.md R351: the first tick. -/
theorem test_first_tick :
    (match step (system []) with
     | .next t => (t.master.mph, t.scan.scDrv)
     | .fault _ => (.idle, [])
     | .refused _ => (.idle, [])) = (.invFirst, [true, false]) := by decide +kernel
/-- 93_implementation_defined.md section 3: what a model must refuse. -/
theorem test_refusals :
    refusalOf (step { system [] with params := { params with threshold := some 1 } }) =
      some .thresholdTooSmall ∧
    refusalOf (step { system [] with params := { params with threshold := none } }) =
      some .thresholdDisabled ∧
    refusalOf (step { system [] with params := { params with checksumOn := false } }) =
      some .checksumOff ∧
    refusalOf (step { system [] with params := { params with identLen := 0 } }) =
      some .identityLength ∧
    refusalOf (step { system [] with params := { params with numScan := 0 } }) = some .noScanLine ∧
    refusalOf (step { system [] with params := { params with masters := 2 } }) = some .masterCount ∧
    refusalOf (step { system [] with
      inputs := [{ TickInput.quiet with host := [.enable, .cancel] }] }) = some .hostCommands := by
  decide +kernel
/-- 00_scope.md R10: a `SCAN_MAP` that names device 0. -/
theorem test_refuses_scan_map_device :
    refusalOf (step { system [] with
      params := { params with scanMap :=
        [{ line := 0, ident := 0x0A, target := { dev := 0, cmd := 0, arg := 0, ff := false } }] }
      mailbox := { valid := true, line := 0, ident := 0x0A } }) = some .scanMapDevice := by
  decide +kernel
/-- 40_framer.md R120: arming a busy framer. -/
theorem test_refuses_arm_while_busy :
    (match ({ Framer.reset with fmode := .rx } : Framer).armTx 0 with
     | .refused r => some r
     | .next _ => none
     | .fault _ => none) = some .armWhileBusy := by decide
/-- The word a table row stands for runs on the very next step (log 14): V2 from reset. -/
theorem test_fetch_word :
    ((slaveOf (step (State.reset.withFetchWord 32 0xF1000F01))).map
      fun v => (v.ownId, v.sstate, v.sph)) = some (1, .respondPending, .tx) := by decide +kernel

/-! ### Witnesses: for every statement with hypotheses, a state and operands that meet them -/

/-- An outcome is a next state with a property. -/
def holds (o : Host.Outcome State Fault Refusal) (p : State → Bool) : Bool :=
  match o with
  | .next t => p t
  | .fault _ => false
  | .refused _ => false

theorem of_holds {o : Host.Outcome State Fault Refusal} {p : State → Bool} (h : holds o p = true) :
    ∃ t, o = .next t ∧ p t = true := by
  cases o <;> simp_all [holds]

theorem of_answers {o : Host.Outcome State Fault Refusal} (h : holds o (fun _ => true) = true) :
    ∃ t, o = .next t :=
  let ⟨t, ht, _⟩ := of_holds h
  ⟨t, ht⟩

theorem witness_DecodeOfEncode :
    (Instr.unrecognised 0 0x12 0 0).wf = true ∧ (Instr.unrecognised 0 0xFF 0 0).wf = true := by decide
theorem witness_EveryWordIsOnePacket :
    (Instr.lightOn 3 0 0xFB).source = .line ∧ (Instr.lightOn 3 0 0xFB).wf = true ∧
    (Instr.lightOn 3 0 0xFB).word = 0xFB000703 := by decide
theorem witness_SingleBitCorruptionDetected :
    (0 < 32 ∧ 31 < 32) ∧ wordValid 0xFB000703 = true := by decide
theorem witness_UndetectedCorruptions : wordValid 0xFB000703 = true := by decide
theorem witness_ArmingAFramer :
    Framer.reset.fmode = .idle ∧ ({ Framer.reset with fmode := .tx } : Framer).fmode ≠ .idle := by decide
theorem witness_TransmitWaveform : 1 ≤ 1 ∧ 1 ≤ 67 ∧ 1 ≤ 66 ∧ 66 < 67 ∧ 67 ≤ 67 := by decide
/-- A receiver in each half of the seek, just under and at a threshold of 2, and one in its data field. -/
theorem witness_FaultThreshold :
    (Framer.reset.seeking.fmode = .rx ∧ Framer.reset.seeking.rxSub = .seekHi ∧
      ¬ 2 ≤ Framer.reset.seeking.fails + 1) ∧
    ({ Framer.reset.seeking with rxSub := .seekLo, fails := 1 } : Framer).fmode = .rx ∧
    (({ Framer.reset.seeking with rxSub := .data } : Framer).fmode = .rx ∧
      ({ Framer.reset.seeking with rxSub := .data } : Framer).fstatus = .ok) := by decide
theorem witness_DataBitsAreTheEvenSamples :
    let f : Framer := { Framer.reset.seeking with rxSub := .data }
    f.fmode = .rx ∧ f.rxSub = .data ∧ f.rxPos = 0 ∧ f.rxVal = 0 ∧ f.fdone = false ∧
    (List.replicate 64 true).length = 64 := by decide
/-- The smallest threshold that lets a reply through, 2 (40_framer.md R137). -/
theorem witness_FrameRoundTrip :
    Framer.reset.drv = false ∧ Framer.reset.seeking.drv = false ∧ Framer.reset.seeking.fmode = .rx ∧
    Framer.reset.seeking.rxSub = .seekHi ∧ Framer.reset.seeking.rxVal = 0 ∧
    Framer.reset.seeking.fdone = false ∧ Framer.reset.seeking.fstatus = .ok ∧
    (∀ n, (some 2 : Option Nat) = some n → Framer.reset.seeking.fails + 1 < n) :=
  ⟨rfl, rfl, rfl, rfl, rfl, rfl, rfl, fun n h => by cases h; decide⟩
theorem witness_ReceiveTimeout : 1 ≤ 1 ∧ 0 < 1 ∧ 1 < 1 + 1 := by decide
theorem witness_ReceiveIsBounded : 1 ≤ 1 ∧ 1 + 65 ≤ (List.replicate 66 true).length := by decide

theorem witness_InvalidWordDropped :
    (heard (slave3 .serving)).hasReceived 0 (slave3 .serving) ∧
    (heard (slave3 .unassigned)).hasReceived 0 (slave3 .unassigned) ∧
    (Instr.disconnect 2 0 0xFA).source = .line ∧ (Instr.disconnect 2 0 0xFA).wf = true ∧
    wordValid (Instr.disconnect 2 0 0xFA).word = false := by decide
/-- Both ends of the id range, and both values outside it. -/
theorem witness_UnassignedSlaveTakesId :
    (heard (slave3 .unassigned)).hasReceived 0 (slave3 .unassigned) ∧
    (slave3 .unassigned).sstate = .unassigned ∧
    isPacket (.typeQuery 1 0 0xF1) 1 0x0F 0 ∧ isPacket (.typeQuery 254 0 0x0E) 254 0x0F 0 ∧
    isPacket (.typeQuery 0 0 0xF0) 0 0x0F 0 ∧ isPacket (.typeQuery 255 0 0x0F) 255 0x0F 0 ∧
    isPacket (.nop 1 0 0xFE) 1 0 0 := by decide
theorem witness_RespondPendingSlave :
    (heard (slave3 .respondPending)).hasReceived 0 (slave3 .respondPending) ∧
    (slave3 .respondPending).sstate = .respondPending ∧
    isPacket (.uidByte3 3 0x40 0xB2) 3 0x0E 0x40 ∧ isPacket (.newDevice 255 0 0x05) 255 0x05 0 := by
  decide
/-- Addressed, broadcast and foreign packets. -/
theorem witness_ServingSlave :
    (heard (slave3 .serving)).hasReceived 0 (slave3 .serving) ∧ (slave3 .serving).sstate = .serving ∧
    isPacket (.lightOn 3 0 0xFB) 3 0x07 0 ∧ isPacket (.newDevice 3 0x40 0xB9) 3 0x05 0x40 ∧
    isPacket (.lightOff 255 0 0x08) 255 0x08 0 ∧ isPacket (.newDevice 255 0 0x05) 255 0x05 0 ∧
    isPacket (.lightOff 4 0 0xF3) 4 0x08 0 ∧ isPacket (.unrecognised 3 0x12 0x40 0xAE) 3 0x12 0x40 := by
  decide
/-- The second and the third marker. -/
theorem witness_StandingBySlave :
    (heard { slave3 .standingBy with smk := 2 }).hasReceived 0 { slave3 .standingBy with smk := 2 } ∧
    (heard { slave3 .standingBy with smk := 1 }).hasReceived 0 { slave3 .standingBy with smk := 1 } ∧
    (slave3 .standingBy).sstate = .standingBy ∧ isPacket (.newDevice 255 0 0x05) 255 0x05 0 ∧
    isPacket (.lightOn 3 0 0xFB) 3 0x07 0 := by decide
theorem witness_ActuatorCommands :
    (heard (slave3 .serving)).hasReceived 0 (slave3 .serving) ∧ (slave3 .serving).sstate = .serving ∧
    (slave3 .serving).ownId ≠ 255 := by decide
theorem witness_OtherCommandsAddressed :
    (heard (slave3 .serving)).hasReceived 0 (slave3 .serving) ∧ (slave3 .serving).sstate = .serving ∧
    0x12 ≤ (0x12 : Byte).toNat ∧ 0x12 ≤ (0xFF : Byte).toNat := by decide

/-- A slave in a phase with its framer in the matching mode. -/
def slaveIn (st : SState) (ph : SPhase) (pos : Nat) : Slave :=
  { slave3 st with sph := ph, ownId := if st = .unassigned then 0 else 3,
                   fr := { Framer.reset with fmode := ph.fmode, txPos := pos, txWord := 0xF9010403 } }

theorem witness_SlavePresence :
    (slaveIn .unassigned .listen 0).sph = .listen ∧ (slaveIn .unassigned .presRel 0).sph = .presRel ∧
    (slaveIn .unassigned .presRel 0).fr.fmode = .idle := by decide
theorem witness_SlaveReplySent :
    (slaveIn .serving .tx 65).sph = .tx ∧ (slaveIn .serving .tx 65).fr.fmode = .tx ∧
    (slaveIn .serving .tx 65).fr.txPos < 66 ∧ (slaveIn .serving .tx 66).fr.fmode = .tx ∧
    (slaveIn .serving .tx 66).fr.txPos = 66 := by decide

theorem witness_DerivedTableFunctions :
    Master.reset.tab.length = 254 ∧ 1 ≤ (1 : Byte).toNat ∧ (254 : Byte).toNat ≤ 254 := by decide +kernel
theorem witness_RoundRobin :
    (polled (entry .expectAck)).master.tab.length = 254 ∧ 1 ≤ (9 : Byte).toNat ∧
    (9 : Byte).toNat ≤ 254 ∧ connectedAt (polled (entry .expectAck)).master.tab 5 = true := by
  decide +kernel
theorem witness_FaultAction :
    tabEntry (polled (entry .expectAck)).master.tab (polled (entry .expectAck)).master.cursor =
      some (entry .expectAck) := by decide +kernel
/-- An invalid word, and a valid word with another id. -/
theorem witness_ReplyValidation :
    (polled (entry .expectAck)).hasReply (entry .expectAck) ∧ (Instr.ok 5 1 0xFE).source = .line ∧
    (Instr.ok 5 1 0xFE).wf = true ∧ wordValid (Instr.ok 5 1 0xFE).word = false ∧
    wordValid (Instr.ok 6 1 0xFC).word = true ∧
    uidOf (Instr.ok 6 1 0xFC).word ≠ (polled (entry .expectAck)).master.cursor := by decide +kernel
theorem witness_ReplyInExpectType :
    (polled Entry.assigned).hasReply Entry.assigned ∧ Entry.assigned.stage = .expectType ∧
    isPacket (.train 5 1 0xEB) (polled Entry.assigned).master.cursor 0x10 1 ∧
    isPacket (.station 5 0 0xEB) (polled Entry.assigned).master.cursor 0x11 0 ∧
    isPacket (.unrecognised 5 0x33 1 0xC8) (polled Entry.assigned).master.cursor 0x33 1 := by
  decide +kernel
theorem witness_ReplyInIdentityStages :
    (polled (entry .expectIdentityByte0)).hasReply (entry .expectIdentityByte0) ∧
    (polled (entry .expectIdentityByte1)).hasReply (entry .expectIdentityByte1) ∧
    (polled (entry .expectIdentityByte2)).hasReply (entry .expectIdentityByte2) ∧
    isPacket (.disconnect 5 1 0xFD) 5 0x06 1 := by decide +kernel
theorem witness_ReplyInExpectAck :
    (polled (entry .expectAck)).hasReply (entry .expectAck) ∧ (entry .expectAck).stage = .expectAck ∧
    isPacket (.ok 5 1 0xFF) (polled (entry .expectAck)).master.cursor 0x04 1 ∧
    isPacket (.nop 5 1 0xFB) (polled (entry .expectAck)).master.cursor 0 1 := by decide +kernel
theorem witness_ReplyInExpectAny :
    (polled (entry .expectAny)).hasReply (entry .expectAny) ∧ (entry .expectAny).stage = .expectAny ∧
    isPacket (.disconnect 5 1 0xFD) (polled (entry .expectAny)).master.cursor 0x06 1 ∧
    isPacket (.nop 5 1 0xFB) (polled (entry .expectAny)).master.cursor 0 1 := by decide +kernel
theorem witness_AfterAReply :
    tabEntry (polled (entry .expectAck)).master.tab (polled (entry .expectAck)).master.cursor =
      some (entry .expectAck) ∧ (entry .expectAck).kind ≠ .disconnected := by decide +kernel
theorem witness_SilentReplyFaults :
    tabEntry (polled (entry .expectAck)).master.tab (polled (entry .expectAck)).master.cursor =
      some (entry .expectAck) ∧ Framer.reset.aborted.fstatus = .sync := by decide +kernel

/-- A system whose master is in a phase. -/
def masterIn (ph : MPhase) (gap mk : Nat) (en : Bool) : State :=
  { system [] with
    master := { Master.reset with mph := ph, mstate := ph.mstate, gapCnt := gap, mkCnt := mk,
                                  enumEn := en } }

theorem witness_InvitationTrain :
    (masterIn .invFirst 0 0 true).master.mph = .invFirst ∧
    (masterIn .invB 0 0 true).master.mph = .invB ∧
    ((masterIn .invA 0 0 true).master.mph = .invA ∧ (masterIn .invA 0 0 true).master.enumEn = true) ∧
    (masterIn .invA 0 0 false).master.mph = .invA ∧ (masterIn .invA 0 0 false).master.enumEn = false := by
  decide
theorem witness_IdAssignment :
    (masterIn .gapAssign 2 0 true).master.mph = .gapAssign ∧
    2 ≤ (masterIn .gapAssign 2 0 true).master.gapCnt ∧
    (masterIn .gapAssign 1 0 true).master.gapCnt = 1 ∧
    (masterIn .gapAssign 1 0 true).master.fr.fmode = .idle ∧
    lowestFree (masterIn .gapAssign 1 0 true).master.tab = some 1 := by decide +kernel
theorem witness_MarkerGap :
    (masterIn .gapMarker 2 0 false).master.mph = .gapMarker ∧
    2 ≤ (masterIn .gapMarker 2 0 false).master.gapCnt ∧
    (masterIn .gapMarker 1 0 false).master.gapCnt = 1 ∧
    (masterIn .gapMarker 1 0 false).master.fr.fmode = .idle := by decide
/-- Each transmit phase, with the second and the third marker. -/
theorem witness_TransmitFollowUps :
    (masterIn .txPoll 0 0 true).master.fr.fmode = .idle ∧
    (masterIn .txPoll 0 0 true).master.mph = .txPoll ∧
    (masterIn .txBcast 0 0 true).master.mph = .txBcast ∧
    (masterIn .txAnnounce 0 0 true).master.mph = .txAnnounce ∧
    ((masterIn .txMarker 0 1 true).master.mph = .txMarker ∧
      (masterIn .txMarker 0 1 true).master.mkCnt + 1 < 3) ∧
    3 ≤ (masterIn .txMarker 0 2 true).master.mkCnt + 1 := by decide
/-- Each of the five cases; the full table is that of vector M9. -/
theorem witness_DecideAccepting :
    Master.reset.mstate = .acceptingConnections ∧ Master.reset.enumEn = true ∧
    lowestFree (List.replicate 254 Entry.assigned) = none ∧ lowestFree Master.reset.tab ≠ none ∧
    connectedCount Master.reset.tab = 0 ∧
    connectedCount (polled (entry .expectAck)).master.tab ≠ 0 := by decide +kernel
/-- The empty table, the cursor on a connected entry, and on a disconnected one (vector M7). -/
theorem witness_DecidePolling :
    connectedCount Master.reset.tab = 0 ∧ connectedCount (polled (entry .expectAck)).master.tab ≠ 0 ∧
    (polled (entry .expectAck)).master.fr.fmode = .idle ∧
    connectedAt (polled (entry .expectAck)).master.tab 5 = true ∧
    tabEntry (polled (entry .expectAck)).master.tab 5 = some (entry .expectAck) ∧
    connectedAt (polled (entry .expectAck)).master.tab 7 = false ∧
    nextConn (polled (entry .expectAck)).master.tab 7 = some 9 := by decide +kernel

theorem witness_EmptyContact : (Scan.reset 1).Inv 1 ∧ (Scan.reset 1).scPh = .pulse := by decide
theorem witness_ScanReadsTag :
    (Scan.reset 2).Inv 2 ∧ (Scan.reset 2).scPh = .pulse ∧ (Tag.mk 0x0A true 0).sent = 0 := by decide
theorem witness_ReportOnce :
    ({ Scan.reset 2 with scVal := 0x0A } : Scan).Inv 2 ∧
    ({ Scan.reset 2 with scVal := 0x0A } : Scan).scVal ≠ (Scan.reset 2).cache.getD 0 0 ∧
    (0x0B : Byte) ≠ 0x0A := by decide
/-- No report; a report that nothing maps; a mapped report that is taken, and one that is dropped. -/
theorem witness_DispatchOfAReport :
    (system []).mailbox.valid = false ∧ (reported 0 (entry .expectAck)).mailbox.valid = true ∧
    params.scanTarget 0 0x0C = none ∧
    params.scanTarget 0 0x0A = some { dev := 3, cmd := opLightOn, arg := 0, ff := false } ∧
    params.scanTarget 1 0x0A = some { dev := 3, cmd := opLightOff, arg := 0, ff := true } ∧
    tabEntry (reported 0 (entry .expectAck)).master.tab 3 = some (entry .expectAck) ∧
    tabEntry (reported 0 Entry.assigned).master.tab 3 = some Entry.assigned := by decide +kernel

/-- A slave one tick from a packet, in a phase consistent with the invariant. -/
def receiving (st : SState) (w : Word) : Slave :=
  { slaveIn st .rx 0 with
    fr := { Framer.reset with fmode := .rx, rxSub := .data, rxPos := 63, rxVal := w } }

/-- The first tick: slave 0 is one tick from `{3, LIGHT-ON, 0}`, slave 1 is held in reset. -/
def busy : State :=
  { system [receiving .serving 0xFB000703, slaveIn .unassigned .listen 0] with
    inputs := [{ TickInput.quiet with resetSlaves := [1] }] }

theorem witness_HeldInReset :
    (∃ t, step busy = .next t) ∧ busy.nextInput.resetSlaves.contains 1 = true ∧
    busy.nextInput.resetSlaves.contains 0 = false ∧ (receiving .serving 0xFB000703).sstate ≠ .unassigned ∧
    (∃ t, step { busy with inputs := [{ TickInput.quiet with resetMaster := true }] } = .next t) :=
  ⟨of_answers (by decide +kernel), by decide, by decide, by decide,
   of_answers (by decide +kernel)⟩

/-- The agents before slave 0 answer, and its word is complete on the next tick. -/
theorem witness_StepRunsPacket :
    busy.params.refusal = none ∧ busy.slaves[0]? = some (receiving .serving 0xFB000703) ∧
    (receiving .serving 0xFB000703).sph = .rx ∧
    (receiving .serving 0xFB000703).fr.lastTickOf 0xFB000703 ∧
    busy.nextInput.resetSlaves.contains 0 = false ∧
    (∃ t, busy.beforeSlave 0 = .next t) ∧
    decode .line [0x03, 0x07, 0x00, 0xFB] = .ok (.lightOn 3 0 0xFB) :=
  ⟨by decide, by decide, by decide, by decide, by decide,
   of_answers (by decide +kernel), by decide⟩

/-- The master one tick from the reply `w` of entry 5. -/
def replying (e : Entry) (w : Word) : State :=
  { polled e with
    master := { (polled e).master with
      fr := { Framer.reset with fmode := .rx, rxSub := .data, rxPos := 63, rxVal := w } } }

theorem witness_StepRunsReply :
    (replying (entry .expectAck) 0xFF010405).params.refusal = none ∧
    (replying (entry .expectAck) 0xFF010405).nextInput.resetMaster = false ∧
    (replying (entry .expectAck) 0xFF010405).nextInput.host = [] ∧
    (replying (entry .expectAck) 0xFF010405).master.mph = .rxReply ∧
    (replying (entry .expectAck) 0xFF010405).master.fr.lastTickOf 0xFF010405 ∧
    decode .line [0x05, 0x04, 0x01, 0xFF] = .ok (.ok 5 1 0xFF) := by decide
theorem witness_StepRunsHostCommand :
    ({ system [] with inputs := [{ TickInput.quiet with host := [.motor 1 0x40] }] } : State).params.refusal
      = none ∧
    ({ system [] with inputs := [{ TickInput.quiet with host := [.motor 1 0x40] }] } : State).nextInput.host
      = [.motor 1 0x40] := by decide

section Invariant

set_option synthInstance.maxSize 1000
set_option synthInstance.maxHeartbeats 200000

/-- The invariant holds in a state with a slave that listens, one that receives and one that replies, and
the master at the end of a gap; the step answers, assigns id 1, and a slave starts a reply. -/
def lively : State :=
  { masterIn .gapAssign 1 0 true with
    slaves := [slaveIn .unassigned .listen 0, receiving .serving 0xFB000703, slaveIn .serving .tx 0] }

theorem witness_StepKeepsInvariant : lively.Inv ∧ ∃ t, step lively = .next t :=
  ⟨by decide +kernel, of_answers (by decide +kernel)⟩
theorem witness_StepProgress : lively.Inv ∧ lively.oneHostCommand := by decide +kernel
/-- A reply that starts, a reply tick that drives the line, and a presence. -/
theorem witness_SlaveTransmitsOnlyWhenAsked :
    lively.Inv ∧
    (∃ t, step lively = .next t ∧ (holds (.next t) fun t =>
      ((t.slaves[1]?.map Slave.sph) == some .tx) && ((t.slaves[2]?.map fun v => v.fr.drv) == some true)) =
        true) ∧
    ({ lively with extDrv := true } : State).Inv ∧
    (∃ t, step { lively with extDrv := true } = .next t ∧
      ((t.slaves[0]?.map fun v => v.fr.drv) == some true) = true) :=
  ⟨by decide +kernel,
   of_holds (p := fun t => holds (.next t) fun t =>
     ((t.slaves[1]?.map Slave.sph) == some .tx) && ((t.slaves[2]?.map fun v => v.fr.drv) == some true))
     (by decide +kernel),
   by decide +kernel,
   of_holds (p := fun t => (t.slaves[0]?.map fun v => v.fr.drv) == some true) (by decide +kernel)⟩
/-- An id that becomes connected, and one that a fault frees (vector H8). -/
theorem witness_ConnectedSetChanges :
    (lively.Inv ∧ lively.nextInput.resetMaster = false ∧ connectedAt lively.master.tab 1 = false ∧
      ∃ t, step lively = .next t ∧ connectedAt t.master.tab 1 = true) ∧
    ((replying (entry .expectAck) 0xFB010005).Inv ∧
      connectedAt (replying (entry .expectAck) 0xFB010005).master.tab 5 = true ∧
      ∃ t, step (replying (entry .expectAck) 0xFB010005) = .next t ∧
        (!connectedAt t.master.tab 5) = true) :=
  ⟨⟨by decide +kernel, by decide, by decide +kernel,
    of_holds (p := fun t => connectedAt t.master.tab 1) (by decide +kernel)⟩,
   by decide +kernel, by decide +kernel,
   of_holds (p := fun t => !connectedAt t.master.tab 5) (by decide +kernel)⟩

end Invariant

/-- The master inside a poll frame, and inside a reply. -/
theorem witness_TableStableDuringPoll :
    (∃ t, step { masterIn .txPoll 0 0 true with slaves := [] } = .next t) ∧
    (masterIn .txPoll 0 0 true).nextInput.resetMaster = false ∧
    (∃ t, step { replying (entry .expectAck) 0 with
        master := { (replying (entry .expectAck) 0).master with fr := Framer.reset.seeking } } = .next t ∧
      decide (t.master.mph = .rxReply) = true) :=
  ⟨of_answers (by decide +kernel), by decide,
   of_holds (p := fun t => decide (t.master.mph = .rxReply)) (by decide +kernel)⟩
theorem witness_HostAloneWritesEnable :
    (∃ t, step busy = .next t) ∧ busy.nextInput.resetMaster = false ∧
    (∃ t, step { system [] with inputs := [{ TickInput.quiet with host := [.cancel] }] } = .next t) :=
  ⟨of_answers (by decide +kernel), by decide,
   of_answers (by decide +kernel)⟩
/-- The same slave in two systems with different masters. -/
theorem witness_SlaveSeesOnlyTheLine :
    (∃ t, step busy = .next t) ∧
    (∃ t, step { busy with master := (masterIn .gapAssign 1 0 true).master } = .next t) ∧
    busy.dataLevel =
      ({ busy with master := (masterIn .gapAssign 1 0 true).master } : State).dataLevel :=
  ⟨of_answers (by decide +kernel),
   of_answers (by decide +kernel), by decide⟩

end Sys2Proof.Tests
end

section
/-!
PROOF. The framer part of the invariant (10_state.md R21 to R25): arming keeps it, and so does every
tick of a transmit or a receive. The two tick lemmas also say what the owning engine needs of the
framer: the mode it is left in, and that a completed operation leaves the line undriven.
-/

namespace Sys2Proof.Machine

/-- A bit put at place `k` of a word below `2 ^ k` (40_framer.md R133, 44_contact_scan.md R262). -/
theorem toNat_or_bit_lt {w k : Nat} {x : BitVec w} (b : Bool) (hx : x.toNat < 2 ^ k) :
    (x ||| ((BitVec.ofBool b).setWidth w <<< k)).toNat < 2 ^ (k + 1) := by
  have hbit : ((BitVec.ofBool b).setWidth w <<< k).toNat < 2 ^ (k + 1) := by
    have hb : ((BitVec.ofBool b).setWidth w).toNat ≤ 1 := by
      rw [BitVec.toNat_setWidth]
      exact (Nat.mod_le _ _).trans (by cases b <;> decide)
    rw [BitVec.toNat_shiftLeft, Nat.shiftLeft_eq]
    calc ((BitVec.ofBool b).setWidth w).toNat * 2 ^ k % 2 ^ w
        ≤ 1 * 2 ^ k := (Nat.mod_le _ _).trans (Nat.mul_le_mul_right _ hb)
      _ < 2 ^ (k + 1) := by rw [one_mul]; exact Nat.pow_lt_pow_succ (by decide)
  rw [BitVec.toNat_or]
  exact Nat.or_lt_two_pow (hx.trans (Nat.pow_lt_pow_succ (by decide))) hbit

theorem Framer.reset_inv : Framer.reset.Inv := by decide

/-- Outside a frame the drive is free: the phases of the owner say what it is. -/
theorem Framer.Inv.withDrv {f : Framer} (h : f.Inv) (hm : f.fmode = .idle) (b : Bool) :
    ({ f with drv := b } : Framer).Inv := by
  obtain ⟨htx, hrx, -⟩ := h
  exact ⟨htx, hrx, by simp [hm], by simp [hm], by simp [hm], by simp [hm], by simp [hm]⟩

/-- A transmit armed on an undriven line (40_framer.md R121). -/
theorem Framer.Inv.sending {f : Framer} (h : f.Inv) (hd : f.drv = false) (w : Word) :
    (f.sending w).Inv := by
  obtain ⟨-, hrx, -⟩ := h
  exact ⟨Nat.zero_le _, hrx, by simp [hd], by simp, by simp, by simp, by simp⟩

/-- A receive armed on an undriven line (40_framer.md R130). -/
theorem Framer.Inv.seeking {f : Framer} (h : f.Inv) (hd : f.drv = false) : f.seeking.Inv := by
  obtain ⟨htx, -⟩ := h
  exact ⟨htx, Nat.zero_le _, by simp, by simp [hd], by simp, by simp, by simp⟩

/-- A transmit tick goes on with the frame, or completes it and leaves the line undriven
(40_framer.md R122). -/
theorem Framer.Inv.txTick {f : Framer} (h : f.Inv) (hm : f.fmode = .tx) :
    (∃ g, f.txTick = (g, false) ∧ g.Inv ∧ g.fmode = .tx ∧ g.txWord = f.txWord) ∨
    (∃ g, f.txTick = (g, true) ∧ g.Inv ∧ g.fmode = .idle ∧ g.drv = false) := by
  obtain ⟨htx, hrx, -, -, -, -, hdone⟩ := h
  by_cases hk : f.txPos < 66
  · refine .inl ⟨_, Framer.txTick_running hm hk, ?_, hm, rfl⟩
    exact ⟨hk, hrx, by simp, by simp [hm], by simp [hm], by simp [hm], hdone⟩
  · refine .inr ⟨_, Framer.txTick_last hm hk, ?_, rfl, rfl⟩
    exact ⟨htx, hrx, by simp, by simp, by simp, by simp, by simp⟩

/-- What a receive tick may leave: the receive goes on below the threshold `th`, or it ends. -/
def Framer.RxResult (th : Option Nat) (r : Framer × Bool) : Prop :=
  (∃ g, r = (g, false) ∧ g.Inv ∧ g.fmode = .rx ∧ ∀ n, th = some n → g.fails < n) ∨
  (∃ g, r = (g, true) ∧ g.Inv ∧ g.fmode = .idle ∧ g.drv = false)

/-- A failed start-bit detection counts below the threshold and ends the receive at it
(40_framer.md R131, R132). -/
theorem Framer.Inv.failedDetection {f : Framer} (h : f.Inv) (hm : f.fmode = .rx) (th : Option Nat) :
    Framer.RxResult th (f.failedDetection th) := by
  obtain ⟨htx, hrx, -, hd, hseek, hdata, hdone⟩ := h
  have counted : ({ f with fails := f.fails + 1 } : Framer).Inv :=
    ⟨htx, hrx, by simp [hm], hd, hseek, hdata, hdone⟩
  unfold Framer.failedDetection
  cases th with
  | none => exact .inl ⟨_, rfl, counted, hm, by simp⟩
  | some n =>
    by_cases hn : n ≤ f.fails + 1
    · refine .inr ⟨_, if_pos hn, ?_, rfl, hd hm⟩
      exact ⟨htx, hrx, by simp, by simp, by simp, by simp, by simp⟩
    · exact .inl ⟨_, if_neg hn, counted, hm, by simpa using hn⟩

/-- A data tick adds one bit at its place on the even ticks, none on the odd ones
(40_framer.md R133). -/
theorem Framer.Inv.dataTick {f : Framer} (h : f.Inv) (hm : f.fmode = .rx) (hs : f.rxSub = .data)
    {th : Option Nat} (hf : ∀ n, th = some n → f.fails < n) (b : Bool) :
    Framer.RxResult th (f.dataTick b) := by
  obtain ⟨htx, hrx, -, hd, -, hdata, hdone⟩ := h
  have hval := hdata hm hs
  unfold Framer.dataTick
  by_cases hp : f.rxPos = 63
  · refine .inr ⟨_, if_pos hp, ?_, rfl, hd hm⟩
    exact ⟨htx, hrx, by simp, by simp, by simp, by simp, by simp⟩
  · refine .inl ⟨_, if_neg hp, ?_, hm, hf⟩
    refine ⟨htx, by show f.rxPos + 1 ≤ 63; omega, by simp [hm], hd, by simp [hs], fun _ _ => ?_, hdone⟩
    show (if f.rxPos % 2 = 0 then _ else _ : Word).toNat < 2 ^ ((f.rxPos + 1 + 1) / 2)
    by_cases he : f.rxPos % 2 = 0
    · rw [if_pos he, show (f.rxPos + 1 + 1) / 2 = f.rxPos / 2 + 1 by omega]
      exact toNat_or_bit_lt b (by rwa [show (f.rxPos + 1) / 2 = f.rxPos / 2 by omega] at hval)
    · rw [if_neg he, show (f.rxPos + 1 + 1) / 2 = (f.rxPos + 1) / 2 by omega]
      exact hval

/-- A receive tick, by the part of the frame the receiver is in (40_framer.md R131 to R133). -/
theorem Framer.Inv.rxTick {f : Framer} (h : f.Inv) (hm : f.fmode = .rx) {th : Option Nat}
    (hf : ∀ n, th = some n → f.fails < n) (b : Bool) : Framer.RxResult th (f.rxTick th b) := by
  have parts := h
  obtain ⟨htx, hrx, -, hd, hseek, -, hdone⟩ := parts
  cases hs : f.rxSub with
  | seekHi =>
    cases b with
    | true =>
      rw [Framer.rxTick_seekHi_active th hm hs]
      refine .inl ⟨_, rfl, ?_, hm, hf⟩
      exact ⟨htx, hrx, by simp [hm], hd, fun _ _ => hseek hm (by simp [hs]), by simp, hdone⟩
    | false => rw [Framer.rxTick_seekHi_idle th hm hs]; exact h.failedDetection hm th
  | seekLo =>
    cases b with
    | true => rw [Framer.rxTick_seekLo_active th hm hs]; exact h.failedDetection hm th
    | false =>
      rw [Framer.rxTick_seekLo_idle th hm hs]
      refine .inl ⟨_, rfl, ?_, hm, hf⟩
      have hzero : f.rxVal = 0 := hseek hm (by simp [hs])
      exact ⟨htx, Nat.zero_le _, by simp [hm], hd, by simp, by simp [hzero], hdone⟩
  | data => rw [Framer.rxTick_data th b hm hs]; exact h.dataTick hm hs hf b

end Sys2Proof.Machine
end

section
/-!
PROOF. The slave part of the invariant (10_state.md R35, 43_slave.md R210 to R219). Between two frames
a slave is at rest (`Slave.AtRest`); whatever it does next, listening, receiving again or replying,
gives a slave that meets its invariant, and each opcode's rule does one of these.
-/

namespace Sys2Proof.Machine

/-- A slave whose framer has nothing to do, with its id and marker count as `sstate` demands. -/
structure Slave.AtRest (v : Slave) : Prop where
  framer : v.fr.Inv
  idle : v.fr.fmode = .idle
  undriven : v.fr.drv = false
  unassignedId : v.sstate = .unassigned → v.ownId = 0
  assignedId : v.sstate ≠ .unassigned → assignable v.ownId = true
  markers : v.smk ≤ 2
  markersStandby : v.sstate ≠ .standingBy → v.smk = 0

theorem Slave.reset_inv (c : SlaveCfg) : (Slave.reset c).Inv :=
  ⟨Framer.reset_inv, rfl, fun _ => ⟨rfl, rfl⟩, fun _ => rfl, fun h => absurd rfl h, Nat.zero_le _,
   fun _ => rfl, nofun, nofun, fun h => absurd rfl h, nofun, nofun⟩

/-- Outside a transmit no state change is pending (10_state.md R35). -/
theorem Slave.Inv.afterTx_none {v : Slave} (h : v.Inv) (hp : v.sph ≠ .tx) : v.afterTx = .none := by
  obtain ⟨-, -, -, -, -, -, -, -, -, hafter, -⟩ := h
  by_contra hn
  exact hp (hafter hn)

/-- A slave of the invariant whose framer is left idle on an undriven line is at rest. -/
theorem Slave.Inv.atRest {v : Slave} (h : v.Inv) {f : Framer} (hf : f.Inv) (hm : f.fmode = .idle)
    (hd : f.drv = false) : ({ v with fr := f } : Slave).AtRest := by
  obtain ⟨-, -, -, hun, has, hmk, hmk0, -⟩ := h
  exact ⟨hf, hm, hd, hun, has, hmk, hmk0⟩

/-- The command byte of a packed word, bits 15..8 (30_encoding.md R91). -/
theorem cmdOf_pack (uid cmd arg : Byte) : cmdOf (pack uid cmd arg) = cmd :=
  calc cmdOf (pack uid cmd arg)
      = (cks uid cmd arg ++ arg ++ cmd).extractLsb' 0 8 :=
        BitVec.extractLsb'_append_eq_of_le (by decide)
    _ = cmd := BitVec.extractLsb'_append_eq_right

section Leaving
variable {v : Slave}

/-- `sph <- LISTEN` (43_slave.md R214, R215). -/
theorem Slave.AtRest.listen_inv (h : v.AtRest) (hs : v.sstate = .unassigned) (ha : v.afterTx = .none) :
    ({ v with sph := .listen } : Slave).Inv :=
  ⟨h.framer, h.idle, fun _ => ⟨hs, h.undriven⟩, h.unassignedId, h.assignedId, h.markers,
   h.markersStandby, nofun, nofun, fun hn => absurd ha hn, fun hn => by simp [ha] at hn,
   fun hn => by simp [ha] at hn⟩

/-- `arm_rx(); sph <- RX` (43_slave.md R212, R213). -/
theorem Slave.AtRest.listening_inv (h : v.AtRest) (ha : v.afterTx = .none) : v.listening.Inv :=
  ⟨h.framer.seeking h.undriven, rfl, nofun, h.unassignedId, h.assignedId, h.markers,
   h.markersStandby, nofun, nofun, fun hn => absurd ha hn, fun hn => by simp [ha] at hn,
   fun hn => by simp [ha] at hn⟩

/-- `Reply(d)` (43_slave.md R213), with the state change `after_tx` that waits for its end. -/
theorem Slave.AtRest.replying_inv (h : v.AtRest) (d : Byte)
    (hs : v.sstate = .respondPending ∨ v.sstate = .serving)
    (hsv : v.afterTx = .serving → v.sstate = .respondPending)
    (hsb : v.afterTx = .standingBy → v.sstate = .serving) : (v.replying d).Inv :=
  ⟨h.framer.sending h.undriven _, rfl, nofun, h.unassignedId, h.assignedId, h.markers,
   h.markersStandby, fun _ => hs, fun _ => by simp [cmdOf_pack], fun _ => rfl, hsv, hsb⟩

end Leaving

/-- A rule keeps the invariant: in a slave at rest each of its parts answers only with a slave of the
invariant, and its effects before the receiver is armed again leave a slave at rest. -/
structure SlaveRule.Keeps (r : SlaveRule) : Prop where
  unassigned : ∀ v v', v.AtRest → v.afterTx = .none → v.sstate = .unassigned →
    r.unassigned v = .next v' → v'.Inv
  pending : ∀ v v', v.AtRest → v.afterTx = .none → v.sstate = .respondPending →
    r.pending v = .next v' → v'.Inv
  serving : ∀ v v', v.AtRest → v.afterTx = .none → v.sstate = .serving →
    r.serving v = .next v' → v'.Inv
  bcast : ∀ v, v.AtRest → v.sstate = .serving →
    (r.bcast v).AtRest ∧ (r.bcast v).afterTx = v.afterTx
  standby : ∀ v, v.AtRest → v.sstate = .standingBy →
    (r.standby v).AtRest ∧ (r.standby v).afterTx = v.afterTx

section Rules
variable {v v' : Slave}

theorem Slave.AtRest.backToListen_inv (h : v.AtRest) (ha : v.afterTx = .none)
    (hs : v.sstate = .unassigned) (hv : v.backToListen = .next v') : v'.Inv := by
  obtain rfl : { v with sph := .listen } = v' := by simpa [Slave.backToListen] using hv
  exact h.listen_inv hs ha

theorem Slave.AtRest.rearm_inv (h : v.AtRest) (ha : v.afterTx = .none) (hv : v.rearm = .next v') :
    v'.Inv := by
  obtain ⟨-, rfl⟩ := Slave.rearm_eq_next.1 hv
  exact h.listening_inv ha

/-- A reply that changes no state at its end. -/
theorem Slave.AtRest.reply_inv {d : Byte} (h : v.AtRest) (ha : v.afterTx = .none)
    (hs : v.sstate = .respondPending ∨ v.sstate = .serving) (hv : v.reply d = .next v') : v'.Inv := by
  obtain ⟨-, rfl⟩ := Slave.reply_eq_next.1 hv
  exact h.replying_inv d hs (by simp [ha]) (by simp [ha])

/-- An effect that writes the actuator registers only (10_state.md R36). -/
def ActuatorOnly (f : Slave → Slave) : Prop :=
  ∀ v, (f v).fr = v.fr ∧ (f v).sstate = v.sstate ∧ (f v).ownId = v.ownId ∧
    (f v).afterTx = v.afterTx ∧ (f v).smk = v.smk

theorem ActuatorOnly.id : ActuatorOnly id := fun _ => ⟨rfl, rfl, rfl, rfl, rfl⟩

theorem ActuatorOnly.setLight (b : Bool) : ActuatorOnly (Slave.setLight b) :=
  fun _ => ⟨rfl, rfl, rfl, rfl, rfl⟩

theorem ActuatorOnly.setMotor (d : MotorDir) (sp : Byte) : ActuatorOnly (Slave.setMotor d sp) :=
  fun _ => ⟨rfl, rfl, rfl, rfl, rfl⟩

theorem ActuatorOnly.atRest {f : Slave → Slave} (hf : ActuatorOnly f) (h : v.AtRest) : (f v).AtRest := by
  obtain ⟨hfr, hst, hid, -, hmk⟩ := hf v
  obtain ⟨h1, h2, h3, h4, h5, h6, h7⟩ := h
  exact ⟨hfr ▸ h1, hfr ▸ h2, hfr ▸ h3, by rwa [hst, hid], by rwa [hst, hid], by rwa [hmk],
    by rwa [hst, hmk]⟩

theorem commandRule_keeps {f : Slave → Slave} (hf : ActuatorOnly f) : (commandRule f).Keeps where
  unassigned _ _ h ha hs hv := h.backToListen_inv ha hs hv
  pending _ _ h ha hs hv := h.reply_inv ha (.inl hs) hv
  serving v _ h ha hs hv := by
    obtain ⟨-, hst, -, haf, -⟩ := hf v
    exact (hf.atRest h).reply_inv (haf.trans ha) (.inr (hst.trans hs)) hv
  bcast v h _ := by
    obtain ⟨-, -, -, haf, -⟩ := hf v
    exact ⟨hf.atRest h, haf⟩
  standby _ h _ := ⟨h, rfl⟩

theorem queryRule_keeps (answer : Slave → Byte) : (queryRule answer).Keeps where
  unassigned _ _ h ha hs hv := h.backToListen_inv ha hs hv
  pending _ _ h ha hs hv := h.reply_inv ha (.inl hs) hv
  serving _ _ h ha hs hv := h.reply_inv ha (.inr hs) hv
  bcast _ h _ := ⟨h, rfl⟩
  standby _ h _ := ⟨h, rfl⟩

/-- `UID-BYTE-3` in `RespondPending`: the slave is `Serving` once the reply is sent (R217). -/
theorem uidByte3Rule_keeps : uidByte3Rule.Keeps :=
  { queryRule_keeps fun v => v.cfg.myIdent.b2 with
    pending := fun v _ h _ hs hv => by
      obtain ⟨-, rfl⟩ := Slave.reply_eq_next.1 hv
      have rest : ({ v with afterTx := .serving } : Slave).AtRest := { h with }
      exact rest.replying_inv _ (.inl hs) (fun _ => hs) nofun }

/-- `TYPE-QUERY` while `Unassigned`: an assignable id is taken (R215). -/
theorem typeQueryRule_keeps (uid : Byte) : (typeQueryRule uid).Keeps :=
  { queryRule_keeps fun v => v.cfg.myType with
    unassigned := fun v _ h ha hs hv => by
      by_cases hu : assignable uid = true
      · simp only [typeQueryRule, hu, if_true] at hv
        have rest : ({ v with ownId := uid, sstate := .respondPending } : Slave).AtRest :=
          { h with
            unassignedId := nofun
            assignedId := fun _ => hu
            markersStandby := fun _ => h.markersStandby (by simp [hs]) }
        exact rest.reply_inv ha (.inl rfl) hv
      · simp only [typeQueryRule, hu] at hv
        exact h.backToListen_inv ha hs hv }

/-- A marker heard in `StandingBy`: the third one ends the session for the slave (R219). -/
theorem Slave.AtRest.countMarker (h : v.AtRest) (hs : v.sstate = .standingBy) :
    v.countMarker.AtRest ∧ v.countMarker.afterTx = v.afterTx := by
  have hid : assignable v.ownId = true := h.assignedId (by simp [hs])
  have hmk := h.markers
  unfold Slave.countMarker
  split_ifs with h3
  · exact ⟨{ h with unassignedId := nofun, assignedId := fun _ => hid, markers := Nat.zero_le _,
                    markersStandby := fun _ => rfl }, rfl⟩
  · have h2 : v.smk + 1 ≤ 2 := by simp only [Config.markers] at h3; omega
    exact ⟨{ h with markers := h2, markersStandby := fun hn => absurd hs hn }, rfl⟩

/-- `NEW-DEVICE`: a serving slave stands by, after its reply or at once (R218). -/
theorem newDeviceRule_keeps : newDeviceRule.Keeps :=
  { commandRule_keeps ActuatorOnly.id with
    serving := fun v _ h _ hs hv => by
      obtain ⟨-, rfl⟩ := Slave.reply_eq_next.1 hv
      have rest : ({ v with smk := 0, afterTx := .standingBy } : Slave).AtRest :=
        { h with markers := Nat.zero_le _, markersStandby := fun _ => rfl }
      exact rest.replying_inv _ (.inr hs) nofun (fun _ => hs)
    bcast := fun v h hs =>
      ⟨{ h with unassignedId := nofun, assignedId := fun _ => h.assignedId (by simp [hs]),
                markers := Nat.zero_le _, markersStandby := fun _ => rfl }, rfl⟩
    standby := fun _ h hs => h.countMarker hs }

/-- The rule of every opcode keeps the invariant. -/
theorem ruleOf_keeps (i : Instr) : (ruleOf i).Keeps := by
  cases i with
  | newDevice => exact newDeviceRule_keeps
  | lightOn => exact commandRule_keeps (.setLight _)
  | lightOff => exact commandRule_keeps (.setLight _)
  | stop => exact commandRule_keeps (.setMotor _ _)
  | motorA => exact commandRule_keeps (.setMotor _ _)
  | motorB => exact commandRule_keeps (.setMotor _ _)
  | uidByte1 => exact queryRule_keeps _
  | uidByte2 => exact queryRule_keeps _
  | uidByte3 => exact uidByte3Rule_keeps
  | typeQuery uid => exact typeQueryRule_keeps uid
  | unrecognised => exact queryRule_keeps _
  | _ => exact commandRule_keeps .id

/-- `OnPacket` (43_slave.md R214 to R219) in a slave at rest, case by case of what it can do. -/
theorem Slave.AtRest.onPacket_inv {uid cmd arg c : Byte} {r : SlaveRule} (h : v.AtRest)
    (ha : v.afterTx = .none) (hr : r.Keeps) (hv : onPacket uid cmd arg c r v = .next v') : v'.Inv := by
  rcases onPacket_eq_next hv with ⟨hs, rfl | hv⟩ | ⟨-, hv⟩ | ⟨hs, -, hv⟩ | ⟨hs, -, hv⟩ | ⟨hs, -, hv⟩ |
    ⟨hs, -, hv⟩
  · exact h.listen_inv hs ha
  · exact hr.unassigned v v' h ha hs hv
  · exact h.rearm_inv ha hv
  · exact hr.pending v v' h ha hs hv
  · exact hr.serving v v' h ha hs hv
  · obtain ⟨rest, haf⟩ := hr.bcast v h hs
    exact rest.rearm_inv (haf.trans ha) hv
  · obtain ⟨rest, haf⟩ := hr.standby v h hs
    exact rest.rearm_inv (haf.trans ha) hv

end Rules

section SlavePhases
variable {v v' : Slave}

/-- `sph = LISTEN` (43_slave.md R211): an active line is answered with a presence. -/
theorem Slave.Inv.listenTick (h : v.Inv) (hp : v.sph = .listen) (lv : Bool) : (listenTick lv v).Inv := by
  have hnone := h.afterTx_none (by simp [hp])
  obtain ⟨hf, hm, hid, hun, has, hmk, hmk0, -⟩ := h
  obtain ⟨hs, -⟩ := hid (by simp [hp, SPhase.fmode])
  have hidle : v.fr.fmode = .idle := by simpa [hp, SPhase.fmode] using hm
  cases lv with
  | true =>
    exact ⟨hf.withDrv hidle true, hidle, fun _ => ⟨hs, rfl⟩, hun, has, hmk, hmk0, nofun, nofun,
      fun hn => absurd hnone hn, fun hn => by simp [Machine.listenTick, hnone] at hn,
      fun hn => by simp [Machine.listenTick, hnone] at hn⟩
  | false =>
    have rest : (v.setDrv false).AtRest :=
      ⟨hf.withDrv hidle false, hidle, rfl, hun, has, hmk, hmk0⟩
    have hlisten := rest.listen_inv hs hnone
    rwa [← hp] at hlisten

/-- `sph = PRES_REL` (43_slave.md R212): the presence is released and a receive armed. -/
theorem Slave.Inv.presRelTick (h : v.Inv) (hp : v.sph = .presRel) (hv : presRelTick v = .next v') :
    v'.Inv := by
  have hnone := h.afterTx_none (by simp [hp])
  have parts := h
  obtain ⟨hf, hm, -⟩ := parts
  have hidle : v.fr.fmode = .idle := by simpa [hp, SPhase.fmode] using hm
  exact (h.atRest (hf.withDrv hidle false) hidle rfl).rearm_inv hnone hv

/-- The end of a reply (43_slave.md R213): the state that waited for it is entered. -/
theorem Slave.Inv.settle_atRest (h : v.Inv) {f : Framer} (rest : ({ v with fr := f } : Slave).AtRest) :
    ({ v with fr := f } : Slave).settle.AtRest := by
  obtain ⟨-, -, -, -, -, -, -, -, -, -, hsv, hsb⟩ := h
  cases ha : v.afterTx with
  | none => simpa [Slave.settle, ha, AfterTx.target] using { rest with }
  | serving =>
    have hs := hsv ha
    have hid := rest.assignedId (by simp [hs])
    have hmk := rest.markersStandby (by simp [hs])
    simpa [Slave.settle, ha, AfterTx.target] using
      { rest with unassignedId := nofun, assignedId := fun _ => hid, markersStandby := fun _ => hmk }
  | standingBy =>
    have hs := hsb ha
    have hid := rest.assignedId (by simp [hs])
    simpa [Slave.settle, ha, AfterTx.target] using
      { rest with unassignedId := nofun, assignedId := fun _ => hid, markersStandby := nofun }

/-- `sph = TX` (43_slave.md R213): the frame goes on, or the receiver is armed again. -/
theorem Slave.Inv.slaveTxTick (h : v.Inv) (hp : v.sph = .tx) (hv : slaveTxTick v = .next v') :
    v'.Inv := by
  have parts := h
  obtain ⟨hf, hm, -, hun, has, hmk, hmk0, hst, hword, hafter, hsv, hsb⟩ := parts
  unfold Machine.slaveTxTick at hv
  rcases hf.txTick (by simpa [hp, SPhase.fmode] using hm) with
    ⟨g, hg, hgi, hgm, hgw⟩ | ⟨g, hg, hgi, hgm, hgd⟩
  · obtain rfl : { v with fr := g } = v' := by simpa [hg] using hv
    exact ⟨hgi, by simp [hgm, hp, SPhase.fmode], by simp [hp, SPhase.fmode], hun, has, hmk, hmk0, hst,
      by simpa [hgw] using hword, hafter, hsv, hsb⟩
  · simp only [hg, if_true] at hv
    exact (h.settle_atRest (h.atRest hgi hgm hgd)).rearm_inv rfl hv

/-- `sph = RX` (43_slave.md R213): the receive goes on, or leaves the slave at rest with the word. -/
theorem Slave.Inv.rxTick (h : v.Inv) (hp : v.sph = .rx) (lv : Bool) :
    ((v.fr.rxTick none lv).2 = false → ({ v with fr := (v.fr.rxTick none lv).1 } : Slave).Inv) ∧
    ((v.fr.rxTick none lv).2 = true → ({ v with fr := (v.fr.rxTick none lv).1 } : Slave).AtRest) := by
  have parts := h
  obtain ⟨hf, hm, -, hun, has, hmk, hmk0, -, -, hafter, hsv, hsb⟩ := parts
  rcases hf.rxTick (th := none) (by simpa [hp, SPhase.fmode] using hm) nofun lv with
    ⟨g, hg, hgi, hgm, -⟩ | ⟨g, hg, hgi, hgm, hgd⟩
  · rw [hg]
    exact ⟨fun _ => ⟨hgi, by simp [hgm, hp, SPhase.fmode], by simp [hp, SPhase.fmode], hun, has, hmk,
      hmk0, by simp [hp], by simp [hp], hafter, hsv, hsb⟩, nofun⟩
  · rw [hg]
    exact ⟨nofun, fun _ => h.atRest hgi hgm hgd⟩

end SlavePhases

end Sys2Proof.Machine
end

section
/-!
PROOF. The device table part of the invariant (10_state.md R28, R33): what each write to the table
does to an entry, and where the cursor stands after it moves.
-/

namespace Sys2Proof.Machine

section Entries
variable {e e' : Entry}

theorem Entry.reset_inv : Entry.reset.Inv := by decide

theorem Entry.assigned_inv : Entry.assigned.Inv := by decide

theorem Entry.connected_iff : e.connected = true ↔ e.kind ≠ .disconnected := by
  simp [Entry.connected]

/-- An entry past the first stage knows its type (42_master.md R187). -/
theorem Entry.Inv.named (h : e.Inv) (hs : e.stage ≠ .expectType) :
    e.kind ≠ .unspecified := by
  obtain ⟨-, -, hu, -⟩ := h
  intro hk
  exact hs (by rw [hu hk]; rfl)

/-- An entry past the first stage that knows its type and has no identity byte to ask for. -/
theorem Entry.inv_of_named (ha : e.arg.toNat < 256) (hd : e.kind ≠ .disconnected)
    (hu : e.kind ≠ .unspecified) (hs : e.stage = .expectAck ∨ e.stage = .expectAny ∧ e.pendValid = true) :
    e.Inv := by
  refine ⟨ha, fun hk => absurd hk hd, fun hk => absurd hk hu, ?_⟩
  rcases hs with hs | ⟨hs, hp⟩
  · simp [hs]
  · simp [hs, hp]

/-- A report in an entry that takes it (45_dispatcher.md R290). -/
theorem Entry.Inv.withReport (h : e.Inv) (hc : e.kind ≠ .disconnected) (hs : e.stage = .expectAck)
    (g : ScanTarget) : (e.withReport g).Inv := by
  have harg : (g.arg.setWidth 16).toNat < 256 := by
    rw [BitVec.toNat_setWidth]
    exact (Nat.mod_le _ _).trans_lt g.arg.isLt
  refine Entry.inv_of_named harg hc (h.named (by simp [hs])) ?_
  cases hff : g.ff
  · exact .inl (by simpa [Entry.withReport, hff] using hs)
  · exact .inr ⟨by simp [Entry.withReport, hff], rfl⟩

/-- The reply to `TYPE-QUERY` gives a connected entry its type (42_master.md R187). -/
theorem Entry.Inv.expectType {data : Byte} (h : e.Inv) (he : expectType data e = .ok e') :
    e'.Inv ∧ e'.connected = true := by
  obtain ⟨harg, -⟩ := h
  unfold Machine.expectType at he
  split_ifs at he
  · obtain rfl := Except.ok.inj he
    exact ⟨⟨harg, nofun, nofun, nofun, fun _ => ⟨rfl, rfl⟩, nofun, nofun, nofun⟩, rfl⟩
  · obtain rfl := Except.ok.inj he
    exact ⟨⟨harg, nofun, nofun, nofun, fun _ => ⟨rfl, rfl⟩, nofun, nofun, nofun⟩, rfl⟩

/-- An accepted reply leaves the polled entry connected and well formed, stage by stage
(42_master.md R187 to R191). -/
theorem Entry.Inv.stageRule {data : Byte} (h : e.Inv) (hc : e.connected = true)
    (he : stageRule data e = .ok e') : e'.Inv ∧ e'.connected = true := by
  have hd : e.kind ≠ .disconnected := Entry.connected_iff.1 hc
  have harg : e.arg.toNat < 256 := h.1
  unfold Machine.stageRule at he
  cases hs : e.stage with
  | expectType =>
    simp only [hs] at he
    exact h.expectType he
  | expectIdentityByte0 =>
    simp only [hs] at he
    obtain rfl := Except.ok.inj he
    have hu := h.named (by simp [hs])
    exact ⟨⟨harg, fun hk => absurd hk hd, fun hk => absurd hk hu, nofun, nofun,
      fun _ => ⟨rfl, rfl⟩, nofun, nofun⟩, hc⟩
  | expectIdentityByte1 =>
    simp only [hs] at he
    obtain rfl := Except.ok.inj he
    have hu := h.named (by simp [hs])
    exact ⟨⟨harg, fun hk => absurd hk hd, fun hk => absurd hk hu, nofun, nofun, nofun,
      fun _ => ⟨rfl, rfl⟩, nofun⟩, hc⟩
  | expectIdentityByte2 =>
    simp only [hs] at he
    obtain rfl := Except.ok.inj he
    exact ⟨Entry.inv_of_named harg hd (h.named (by simp [hs])) (.inl rfl), hc⟩
  | expectAck =>
    simp only [hs, expectAck] at he
    split_ifs at he
    obtain rfl := Except.ok.inj he
    exact ⟨Entry.inv_of_named harg hd (h.named (by simp [hs])) (.inl rfl), hc⟩
  | expectAny =>
    simp only [hs, expectAny] at he
    split_ifs at he
    obtain rfl := Except.ok.inj he
    exact ⟨Entry.inv_of_named harg hd (h.named (by simp [hs])) (.inl rfl), hc⟩

end Entries

section Tables
variable {t : List Entry} {i : Byte} {e e₀ : Entry}

theorem tableInv_replicate : TableInv (List.replicate 254 Entry.reset) :=
  ⟨List.length_replicate, fun _ he => List.eq_of_mem_replicate he ▸ Entry.reset_inv⟩

theorem connectedCount_replicate (n : Nat) : connectedCount (List.replicate n Entry.reset) = 0 := by
  rw [connectedCount, List.countP_eq_zero]
  intro e he
  rw [List.eq_of_mem_replicate he]
  decide

theorem TableInv.set (h : TableInv t) (he : e.Inv) : TableInv (setTabEntry t i e) := by
  obtain ⟨hl, hall⟩ := h
  refine ⟨(setTabEntry_length t i e).trans hl, fun x hx => ?_⟩
  rcases mem_setTabEntry hx with hx | rfl
  · exact hall x hx
  · exact he

theorem TableInv.entry (h : TableInv t) (he : tabEntry t i = some e) : e.Inv :=
  h.2 e (mem_of_tabEntry he)

theorem connectedAt_setTabEntry_same (h : tabEntry t i = some e₀) :
    connectedAt (setTabEntry t i e) i = e.connected :=
  connectedAt_of_tabEntry (tabEntry_setTabEntry_same e h)

/-- The cursor after an advance (42_master.md R193) meets its part of the invariant. -/
theorem cursor_advanced (hl : t.length = 254) (hi : assignable i = true) :
    assignable ((nextConn t i).getD i) = true ∧
    (connectedCount t ≠ 0 → connectedAt t ((nextConn t i).getD i) = true) := by
  cases hn : nextConn t i with
  | some j =>
    have hj := connectedAt_of_nextConn hn
    exact ⟨assignable_of_connectedAt hj, fun _ => hj⟩
  | none =>
    refine ⟨hi, fun hc => ?_⟩
    obtain ⟨j, hj⟩ := nextConn_isSome (c := i) hl hc
    simp [hn] at hj

end Tables

end Sys2Proof.Machine
end

section
/-!
PROOF. The master part of the invariant (10_state.md R26 to R34, 42_master.md). Between two frames
the master is at rest (`Master.AtRest`); a decision starts from such a master with an undriven line
(`Master.Ready`). Two lemmas say when a master at rest meets its invariant in a phase, outside frames
and with a transmit just armed; a third carries the invariant through the ticks of a frame.
-/

namespace Sys2Proof.Machine

/-- The part of the master's invariant that no phase changes, with an idle framer. -/
structure Master.AtRest (m : Master) : Prop where
  framer : m.fr.Inv
  idle : m.fr.fmode = .idle
  power : m.pwrDrv = true
  table : TableInv m.tab
  cursorInv : m.CursorInv
  gap : m.gapCnt ≤ 66

/-- A master that may decide (42_master.md R170): at rest, the line undriven, no marker counted, and
the session closed in `Polling`. -/
structure Master.Ready (m : Master) : Prop extends m.AtRest where
  undriven : m.fr.drv = false
  noMarkers : m.mkCnt = 0
  closed : m.mstate = .polling → m.session = false

theorem MPhase.mstate_of_idle {p : MPhase} (h : p.fmode = .idle) : p.mstate = .acceptingConnections := by
  cases p with
  | txPoll => cases h
  | txBcast => cases h
  | txAnnounce => cases h
  | txMarker => cases h
  | rxReply => cases h
  | _ => rfl

theorem MPhase.inviting_of_tx {p : MPhase} (h : p.fmode = .tx) : p.inviting = false := by
  cases p with
  | txPoll => rfl
  | txBcast => rfl
  | txAnnounce => rfl
  | txMarker => rfl
  | _ => cases h

section Building
variable {m : Master} {n : Nat}

/-- A master at rest in a phase outside frames. -/
theorem Master.AtRest.inv_of_idle (h : m.AtRest) (hp : m.mph.fmode = .idle)
    (hst : m.mstate = .acceptingConnections) (hd : m.fr.drv = decide (m.mph = .invB))
    (hmk : m.mkCnt = 0) (hgap : m.mph = .gapAssign ∨ m.mph = .gapMarker → 1 ≤ m.gapCnt)
    (hses : m.mph.inviting = true ∨ m.mph = .gapMarker → m.session = true)
    (hfree : m.mph.inviting = true → (lowestFree m.tab).isSome = true) : m.Inv n := by
  refine ⟨h.framer, h.idle.trans hp.symm, hst.trans (MPhase.mstate_of_idle hp).symm, h.power,
    by simp [h.idle], h.table, h.cursorInv, ?_, fun _ => hd, ⟨h.gap, hgap, by simp [hmk], fun _ => hmk⟩,
    ?_, hfree, by simp [hst]⟩
  · rintro (hm | hm) <;> simp [hm, MPhase.fmode] at hp
  · rintro (hm | hm | hm)
    · exact hses (.inl hm)
    · exact hses (.inr hm)
    · simp [hm, MPhase.fmode] at hp

/-- A master at rest that arms a transmit and enters the phase `p` of it. -/
theorem Master.AtRest.sendingIn_inv (h : m.AtRest) (hd : m.fr.drv = false) {p : MPhase} (w : Word)
    (hp : p.fmode = .tx) (hst : m.mstate = p.mstate)
    (hpoll : p = .txPoll → connectedAt m.tab m.cursor = true ∧
      (m.session = true → tabEntry m.tab m.cursor = some Entry.assigned))
    (hmk : m.mkCnt ≤ 2) (hmk0 : p ≠ .txMarker → m.mkCnt = 0)
    (hses : p = .txMarker → m.session = true) (hclosed : m.mstate = .polling → m.session = false) :
    (m.sendingIn p w).Inv n := by
  have hinv := MPhase.inviting_of_tx hp
  refine ⟨h.framer.sending hd w, hp.symm, hst, h.power, nofun, h.table, h.cursorInv, ?_, ?_,
    ⟨h.gap, ?_, hmk, hmk0⟩, ?_, ?_, hclosed⟩
  · rintro (hm | hm)
    · exact hpoll hm
    · change p = .rxReply at hm
      simp [hm, MPhase.fmode] at hp
  · intro hm
    change p.fmode = .idle at hm
    simp [hm] at hp
  · rintro (hm | hm) <;> · change p = _ at hm; simp [hm, MPhase.fmode] at hp
  · rintro (hm | hm | hm)
    · exact absurd hm (by simp [Master.sendingIn, hinv])
    · change p = _ at hm; simp [hm, MPhase.fmode] at hp
    · exact hses hm
  · exact fun hm => absurd hm (by simp [Master.sendingIn, hinv])

/-- A tick inside a frame moves the framer only. -/
theorem Master.Inv.withFramer (h : m.Inv n) (hp : m.mph.fmode ≠ .idle) {f : Framer} (hf : f.Inv)
    (hm : f.fmode = m.mph.fmode) (hfails : f.fmode = .rx → f.fails < n) :
    ({ m with fr := f } : Master).Inv n := by
  obtain ⟨-, -, hst, hpw, -, ht, hc, hpoll, -, hcnt, hses⟩ := h
  exact ⟨hf, hm, hst, hpw, hfails, ht, hc, hpoll, fun hi => absurd hi hp, hcnt, hses⟩

/-- A master of the invariant whose framer is left idle is at rest. -/
theorem Master.Inv.atRest (h : m.Inv n) {f : Framer} (hf : f.Inv) (hm : f.fmode = .idle) :
    ({ m with fr := f } : Master).AtRest := by
  obtain ⟨-, -, -, hpw, -, ht, hc, -, -, ⟨hgap, -⟩, -⟩ := h
  exact ⟨hf, hm, hpw, ht, hc, hgap⟩

/-- Outside frames the master is at rest, whatever it drives next. -/
theorem Master.Inv.setDrv_atRest (h : m.Inv n) (hp : m.mph.fmode = .idle) (b : Bool) :
    (m.setDrv b).AtRest := by
  have parts := h
  obtain ⟨hf, hm, -⟩ := parts
  exact h.atRest (hf.withDrv (hm.trans hp) b) (hm.trans hp)

/-- A master whose framer is left idle on an undriven line may decide, except between markers. -/
theorem Master.Inv.ready (h : m.Inv n) (hp : m.mph ≠ .txMarker) {f : Framer} (hf : f.Inv)
    (hm : f.fmode = .idle) (hd : f.drv = false) : ({ m with fr := f } : Master).Ready := by
  have rest := h.atRest hf hm
  obtain ⟨-, -, -, -, -, -, -, -, -, ⟨-, -, -, hmk⟩, ⟨-, -, hclosed⟩⟩ := h
  exact { rest with undriven := hd, noMarkers := hmk hp, closed := hclosed }

/-- What is connected decides the cursor's part of the invariant: a dispatch keeps a master at rest. -/
theorem Master.AtRest.withTable (h : m.AtRest) {t : List Entry} (ht : TableInv t)
    (hmap : t.map Entry.connected = m.tab.map Entry.connected) :
    ({ m with tab := t } : Master).AtRest := by
  obtain ⟨ha, hc⟩ := h.cursorInv
  refine { h with table := ht, cursorInv := ⟨ha, ?_⟩ }
  show connectedCount t ≠ 0 → connectedAt t m.cursor = true
  rwa [connectedCount_eq_of_map hmap, connectedAt_eq_of_map hmap]

theorem Master.reset_atRest : Master.reset.AtRest :=
  ⟨Framer.reset_inv, rfl, rfl, tableInv_replicate,
   ⟨by decide, fun hc => absurd (connectedCount_replicate 254) hc⟩, Nat.zero_le _⟩

theorem Master.reset_inv (n : Nat) : Master.reset.Inv n :=
  Master.reset_atRest.inv_of_idle rfl rfl rfl rfl nofun nofun nofun

end Building

section Deciding
variable {m m' : Master} {n : Nat}

/-- `AcceptingConnections` with enumeration enabled (42_master.md R178). -/
theorem Master.Ready.decideInvite_inv (h : m.Ready) (hst : m.mstate = .acceptingConnections) :
    (decideInvite m).Inv n := by
  unfold decideInvite
  cases hf : lowestFree m.tab with
  | none =>
    have rest : ({ m with session := true, capFault := true, mph := .idle } : Master).AtRest :=
      { h with }
    exact rest.inv_of_idle rfl hst h.undriven h.noMarkers nofun nofun nofun
  | some i =>
    have rest : ({ m with session := true, capFault := false, mph := .invFirst } : Master).AtRest :=
      { h with }
    exact rest.inv_of_idle rfl hst h.undriven h.noMarkers nofun (fun _ => rfl) (fun _ => by simp [hf])

/-- An open session without enumeration: the pause before the markers (42_master.md R171). -/
theorem Master.Ready.gapMarker_inv (h : m.Ready) (hst : m.mstate = .acceptingConnections)
    (hs : m.session = true) :
    ({ m with mph := .gapMarker, gapCnt := 66, mkCnt := 0 } : Master).Inv n := by
  have rest : ({ m with mph := .gapMarker, gapCnt := 66, mkCnt := 0 } : Master).AtRest :=
    { h with gap := le_rfl }
  exact rest.inv_of_idle rfl hst h.undriven rfl (fun _ => (by decide : 1 ≤ 66)) (fun _ => hs) nofun

/-- Nothing to do (42_master.md R179). -/
theorem Master.Ready.idle_inv (h : m.Ready) (hst : m.mstate = .acceptingConnections) :
    ({ m with mph := .idle } : Master).Inv n := by
  have rest : ({ m with mph := .idle } : Master).AtRest := { h with }
  exact rest.inv_of_idle rfl hst h.undriven h.noMarkers nofun nofun nofun

/-- `Polling` with something connected (42_master.md R174 to R177): the cursor is on a connected
entry, so its repair leaves it alone. -/
theorem Master.Ready.decidePolling_inv (h : m.Ready) (hst : m.mstate = .polling)
    (hc : connectedCount m.tab ≠ 0) (hm : decidePolling m = .next m') : m'.Inv n := by
  have hses := h.closed hst
  have hmk : m.mkCnt ≤ 2 := by simp [h.noMarkers]
  obtain ⟨-, ⟨-, rfl⟩ | ⟨-, -, rfl⟩ | ⟨-, -, e, -, rfl⟩⟩ := decidePolling_eq_next hm
  · have rest : ({ m with bcValid := false } : Master).AtRest := { h with }
    exact rest.sendingIn_inv (p := .txBcast) h.undriven _ rfl hst nofun hmk (fun _ => h.noMarkers) nofun
      (fun _ => hses)
  · exact h.sendingIn_inv (p := .txAnnounce) h.undriven _ rfl hst nofun hmk (fun _ => h.noMarkers) nofun
      (fun _ => hses)
  · have hcon := h.cursorInv.2 hc
    have hcur : m.repairCursor.cursor = m.cursor := by simp [Master.repairCursor, hcon]
    rw [hcur]
    have rest : ({ m with mstate := .awaitingHandshakeReply } : Master).AtRest := { h with }
    exact rest.sendingIn_inv (p := .txPoll) h.undriven _ rfl rfl
      (fun _ => ⟨hcon, fun hs => by simp [hses] at hs⟩) hmk (fun _ => h.noMarkers) nofun nofun

/-- `MasterDecide` (42_master.md R170) from `AcceptingConnections`. -/
theorem Master.Ready.decide_accepting_inv (h : m.Ready) (hst : m.mstate = .acceptingConnections)
    (hm : masterDecide m = .next m') : m'.Inv n := by
  rw [masterDecide_accepting hst] at hm
  split_ifs at hm with he hs hc
  · obtain rfl := Host.Outcome.next.inj hm
    exact h.decideInvite_inv hst
  · obtain rfl := Host.Outcome.next.inj hm
    exact h.gapMarker_inv hst hs
  · have polling : ({ m with mstate := .polling } : Master).Ready :=
      { h with closed := fun _ => by simpa using hs }
    exact polling.decidePolling_inv rfl hc.ne' hm
  · obtain rfl := Host.Outcome.next.inj hm
    exact h.idle_inv hst

/-- `MasterDecide` (42_master.md R170) from `Polling`. -/
theorem Master.Ready.decide_polling_inv (h : m.Ready) (hst : m.mstate = .polling)
    (hm : masterDecide m = .next m') : m'.Inv n := by
  have accepting : ({ m with mstate := .acceptingConnections } : Master).Ready :=
    { h with closed := nofun }
  rw [masterDecide_polling hst] at hm
  split_ifs at hm with hc he hs
  · obtain rfl := Host.Outcome.next.inj hm
    exact accepting.decideInvite_inv rfl
  · obtain rfl := Host.Outcome.next.inj hm
    exact accepting.gapMarker_inv rfl hs
  · obtain rfl := Host.Outcome.next.inj hm
    exact accepting.idle_inv rfl
  · exact h.decidePolling_inv hst hc hm

theorem Master.Ready.masterDecide_inv (h : m.Ready) (hm : masterDecide m = .next m') : m'.Inv n := by
  cases hst : m.mstate with
  | acceptingConnections => exact h.decide_accepting_inv hst hm
  | polling => exact h.decide_polling_inv hst hm
  | awaitingHandshakeReply => simp [masterDecide_awaiting hst] at hm

end Deciding

section Replies
variable {m m' : Master} {n : Nat}

/-- After a reply the master polls only with the session closed (42_master.md R194). -/
theorem session_closed_of_stateAfterReply {t : List Entry} {b : Bool}
    (h : stateAfterReply t b = .polling) : b = false := by
  unfold stateAfterReply at h
  split_ifs at h with _ hb
  simpa using hb

/-- A fault (60_exceptions.md R318) leaves the master ready for the next decision. -/
theorem Master.Ready.faulted (h : m.Ready) (code : FaultCode) : (m.faulted code).Ready := by
  have table := h.table.set (i := m.cursor) Entry.reset_inv
  exact { h with
    table := table
    cursorInv := cursor_advanced table.1 h.cursorInv.1
    closed := session_closed_of_stateAfterReply }

/-- An accepted reply (42_master.md R193, R194) leaves the master ready for the next decision: the
polled entry is still connected. -/
theorem Master.Ready.accepted (h : m.Ready) {e e' : Entry} (endm : Byte)
    (he : tabEntry m.tab m.cursor = some e) (hi : e'.Inv) (hc : e'.connected = true) :
    (m.accepted e' endm).Ready := by
  have table := h.table.set (i := m.cursor) hi
  have cursor : (m.accepted e' endm).CursorInv := by
    by_cases hend : endm = opEndOfTurn
    · simpa [Master.accepted, hend, Master.CursorInv] using cursor_advanced table.1 h.cursorInv.1
    · simpa [Master.accepted, hend, Master.CursorInv] using
        ⟨h.cursorInv.1, fun _ => (connectedAt_setTabEntry_same he).trans hc⟩
  exact { h with
    table := table
    cursorInv := cursor
    closed := session_closed_of_stateAfterReply }

end Replies

end Sys2Proof.Machine
end

section
/-!
PROOF. What the parts of a tick can do to the state: one inversion lemma for the mailbox step, for the
host command, for the completed reply and for a slave's step, each naming the registers it may write.
-/

namespace Sys2Proof.Machine

theorem Master.armTx_eq_next {m m' : Master} {w : Word} :
    m.armTx w = .next m' ↔ m.fr.fmode = .idle ∧ m' = { m with fr := m.fr.sending w } := by
  by_cases h : m.fr.fmode = .idle
  · simp [Master.armTx_idle w h, h, eq_comm]
  · simp [Master.armTx, Framer.armTx_busy w h, h]

theorem Master.armRx_eq_next {m m' : Master} :
    m.armRx = .next m' ↔ m.fr.fmode = .idle ∧ m' = { m with fr := m.fr.seeking } := by
  by_cases h : m.fr.fmode = .idle
  · simp [Master.armRx_idle h, h, eq_comm]
  · simp [Master.armRx, Framer.armRx_busy h, h]

/-- The id assignment takes the lowest free id and polls it (42_master.md R183). -/
theorem assignId_eq_next {m m' : Master} (h : assignId m = .next m') :
    ∃ i, lowestFree m.tab = some i ∧
      m' = ({ m with tab := setTabEntry m.tab i Entry.assigned, cursor := i,
                     mstate := .awaitingHandshakeReply } : Master).sendingIn .txPoll (assignWord i) := by
  unfold assignId at h
  cases hf : lowestFree m.tab with
  | none => simp [hf] at h
  | some i =>
    simp only [hf] at h
    obtain ⟨m₁, h₁, h⟩ := andThen_eq_next.1 h
    obtain ⟨-, rfl⟩ := Master.armTx_eq_next.1 h₁
    exact ⟨i, rfl, (Host.Outcome.next.inj h).symm⟩

/-- A marker is the announce word in the phase of markers (42_master.md R184, 30_encoding.md R108). -/
theorem armMarker_eq_next {m m' : Master} (h : armMarker m = .next m') :
    m' = m.sendingIn .txMarker announceWord := by
  obtain ⟨m₁, h₁, h⟩ := andThen_eq_next.1 h
  obtain ⟨-, rfl⟩ := Master.armTx_eq_next.1 h₁
  exact (Host.Outcome.next.inj h).symm

/-- One idle tick of a gap (42_master.md R183, R184). -/
def Master.countDown (m : Master) : Master := { m.setDrv false with gapCnt := m.gapCnt - 1 }

theorem gapAssignTick_eq (m : Master) :
    gapAssignTick m = if m.countDown.gapCnt = 0 then assignId m.countDown else .next m.countDown := rfl

theorem gapMarkerTick_eq (m : Master) :
    gapMarkerTick m = if m.countDown.gapCnt = 0 then armMarker m.countDown else .next m.countDown := rfl

section FollowUps
variable {s : State}

theorem txFollowUp_poll (h : s.master.mph = .txPoll) :
    txFollowUp s = andThen s.master.armRx fun m => .next (s.setMaster { m with mph := .rxReply }) := by
  simp only [txFollowUp, h]

theorem txFollowUp_bcast (h : s.master.mph = .txBcast) : txFollowUp s = decisionSequence s := by
  simp only [txFollowUp, h]

theorem txFollowUp_announce (h : s.master.mph = .txAnnounce) :
    txFollowUp s = decisionSequence
      (s.setMaster { s.master with mstate := .acceptingConnections, session := true }) := by
  simp only [txFollowUp, h]

theorem txFollowUp_marker (h : s.master.mph = .txMarker) :
    txFollowUp s =
      if s.master.mkCnt + 1 < 3 then
        andThen (armMarker { s.master with mkCnt := s.master.mkCnt + 1 }) fun m => .next (s.setMaster m)
      else decisionSequence (s.setMaster (closeSession s.master)) := by
  simp only [txFollowUp, h, Config.markers]

/-- Outside a transmit phase there is no follow-up (log 13). -/
theorem txFollowUp_other (h : s.master.mph.fmode ≠ .tx) : txFollowUp s = .next s := by
  unfold txFollowUp
  cases hp : s.master.mph with
  | txPoll => simp [hp, MPhase.fmode] at h
  | txBcast => simp [hp, MPhase.fmode] at h
  | txAnnounce => simp [hp, MPhase.fmode] at h
  | txMarker => simp [hp, MPhase.fmode] at h
  | _ => rfl

end FollowUps

theorem masterTxTick_eq (s : State) :
    masterTxTick s =
      if s.master.fr.txTick.2 then txFollowUp (s.setMasterFramer s.master.fr.txTick.1)
      else .next (s.setMasterFramer s.master.fr.txTick.1) := rfl

theorem masterRxTick_eq (lv : Bool) (s : State) :
    masterRxTick lv s =
      if (s.master.fr.rxTick s.params.threshold lv).2 then
        andThen (completeReply (s.setMasterFramer (s.master.fr.rxTick s.params.threshold lv).1))
          decisionSequence
      else .next (s.setMasterFramer (s.master.fr.rxTick s.params.threshold lv).1) := rfl

/-- The mailbox step writes the mailbox's valid bit and table entries; it changes neither what is
connected nor that the table is well formed (45_dispatcher.md R290). -/
theorem dispatchMailbox_effect {s t : State} (h : dispatchMailbox s = .next t) :
    ∃ b tab, t = (s.setMailbox { s.mailbox with valid := b }).setMaster { s.master with tab := tab } ∧
      tab.map Entry.connected = s.master.tab.map Entry.connected ∧
      (TableInv s.master.tab → TableInv tab) := by
  rcases dispatchMailbox_eq_next h with ⟨-, rfl⟩ | ⟨-, rfl | ⟨g, e, -, -, he, hc, hs, rfl⟩⟩
  · exact ⟨_, _, rfl, rfl, fun ht => ht⟩
  · exact ⟨false, s.master.tab, rfl, rfl, fun ht => ht⟩
  · exact ⟨_, _, rfl, setTabEntry_map_connected he rfl,
      fun ht => ht.set ((ht.entry he).withReport hc hs g)⟩

/-- The decision sequence is the mailbox step and then `MasterDecide` (20_memory.md R75). -/
theorem decisionSequence_eq_next {s t : State} (h : decisionSequence s = .next t) :
    ∃ s' m, dispatchMailbox s = .next s' ∧ masterDecide s'.master = .next m ∧ t = s'.setMaster m := by
  obtain ⟨s', hs', h⟩ := andThen_eq_next.1 h
  obtain ⟨m, hm, h⟩ := andThen_eq_next.1 h
  exact ⟨s', m, hs', hm, (Host.Outcome.next.inj h).symm⟩

/-- A host command writes the broadcast slot, `enum_en` and the answer on the host port, `enum_en` as
`HostEnable` and `HostCancel` say (45_dispatcher.md R283 to R288). -/
theorem hostStep_eq_next {inp : TickInput} {s t : State} (h : hostStep inp s = .next t) :
    ∃ b c a o, t = { s with
      hostOut := o
      master := { s.master with
        bcValid := b, bcCmd := c, bcArg := a
        enumEn := if inp.host = [.enable] then true
                  else if inp.host = [.cancel] then false else s.master.enumEn } } := by
  unfold hostStep at h
  rcases hin : inp.host with _ | ⟨cmd, _ | ⟨_, _⟩⟩
  · simp only [hin] at h
    obtain rfl := Host.Outcome.next.inj h
    exact ⟨_, _, _, _, rfl⟩
  · simp only [hin] at h
    cases cmd with
    | light on =>
      cases on <;>
      · obtain rfl := Host.Outcome.next.inj h
        exact ⟨_, _, _, _, rfl⟩
    | motor dir speed =>
      change execHostMotor dir speed s = .next t at h
      unfold execHostMotor at h
      split_ifs at h <;>
      · obtain rfl := Host.Outcome.next.inj h
        exact ⟨_, _, _, _, rfl⟩
    | bitmap =>
      obtain rfl := Host.Outcome.next.inj h
      exact ⟨_, _, _, _, rfl⟩
    | enable =>
      obtain rfl := Host.Outcome.next.inj h
      exact ⟨_, _, _, _, rfl⟩
    | cancel =>
      obtain rfl := Host.Outcome.next.inj h
      exact ⟨_, _, _, _, rfl⟩
    | lastFault =>
      obtain rfl := Host.Outcome.next.inj h
      exact ⟨_, _, _, _, rfl⟩
  · simp [hin] at h

/-- A completed reply is a fault on the polled entry or an accepted byte for it (42_master.md R185). -/
theorem completeReply_eq_next {s t : State} (h : completeReply s = .next t) :
    ∃ r m e, t = (s.setReceiver r).setMaster m ∧ tabEntry s.master.tab s.master.cursor = some e ∧
      ((∃ code, m = s.master.faulted code) ∨
       ∃ data endm e', stageRule data e = .ok e' ∧ m = s.master.accepted e' endm) := by
  unfold completeReply at h
  cases hf : s.master.fr.fstatus with
  | sync =>
    simp only [hf, handleSilence] at h
    cases he : tabEntry s.master.tab s.master.cursor with
    | none => simp [raiseFault, he] at h
    | some e =>
      rw [raiseFault_of_entry .sync he] at h
      obtain rfl := Host.Outcome.next.inj h
      exact ⟨s.receiver, _, e, rfl, rfl, .inl ⟨_, rfl⟩⟩
  | ok =>
    simp only [hf, exec_decodeWord] at h
    rw [receive_master rfl] at h
    obtain ⟨m, hm, h⟩ := andThen_eq_next.1 h
    obtain rfl := Host.Outcome.next.inj h
    obtain ⟨e, he, hcase⟩ := handleReply_eq_next hm
    refine ⟨_, m, e, rfl, he, ?_⟩
    rcases hcase with hfault | ⟨-, -, e', hs, hacc⟩
    · exact .inl hfault
    · exact .inr ⟨_, _, e', hs, hacc⟩

/-- A receive tick of a slave and, on the completing one, its packet (43_slave.md R213). -/
theorem slaveRxTick_eq_next {lv : Bool} {k : Nat} {v : Slave} {s t : State}
    (hk : s.slaves[k]? = some v) (hp : v.sph = .rx) (h : slaveRxTick lv k v s = .next t) :
    ∃ v' r, t = (s.setSlave k v').setReceiver r ∧ (v.Inv → v'.Inv) := by
  unfold slaveRxTick at h
  cases hr : (v.fr.rxTick none lv).2 with
  | false =>
    simp only [hr] at h
    obtain rfl := Host.Outcome.next.inj h
    exact ⟨_, s.receiver, rfl, fun hv => (hv.rxTick hp lv).1 hr⟩
  | true =>
    obtain ⟨hlt, -⟩ := List.getElem?_eq_some_iff.1 hk
    simp only [hr, if_true, exec_decodeWord] at h
    rw [receive_slave (v := { v with fr := (v.fr.rxTick none lv).1 }) rfl (by simp [hlt])] at h
    obtain ⟨v', hv', h⟩ := andThen_eq_next.1 h
    obtain rfl := Host.Outcome.next.inj h
    refine ⟨v', .slave k, by simp [State.setSlave, State.setReceiver], fun hv => ?_⟩
    exact ((hv.rxTick hp lv).2 hr).onPacket_inv (hv.afterTx_none (by simp [hp])) (ruleOf_keeps _) hv'

/-- A slave's step writes its own registers and the model's receiver field, nothing else
(20_memory.md R75), and keeps the slave's invariant. -/
theorem slaveTick_eq_next {lv : Bool} {k : Nat} {v : Slave} {s t : State} (hk : s.slaves[k]? = some v)
    (h : slaveTick lv k v s = .next t) :
    ∃ v' r, t = (s.setSlave k v').setReceiver r ∧ (v.Inv → v'.Inv) := by
  unfold slaveTick at h
  cases hp : v.sph with
  | listen =>
    simp only [hp] at h
    obtain rfl := Host.Outcome.next.inj h
    exact ⟨_, s.receiver, rfl, fun hv => hv.listenTick hp lv⟩
  | presRel =>
    simp only [hp] at h
    obtain ⟨v', hv', h⟩ := andThen_eq_next.1 h
    obtain rfl := Host.Outcome.next.inj h
    exact ⟨v', s.receiver, rfl, fun hv => hv.presRelTick hp hv'⟩
  | tx =>
    simp only [hp] at h
    obtain ⟨v', hv', h⟩ := andThen_eq_next.1 h
    obtain rfl := Host.Outcome.next.inj h
    exact ⟨v', s.receiver, rfl, fun hv => hv.slaveTxTick hp hv'⟩
  | rx =>
    simp only [hp] at h
    exact slaveRxTick_eq_next hk hp h

end Sys2Proof.Machine
end

section
/-!
PROOF. The invariant of the whole system at reset and over a step (10_state.md R21 to R37): every part
of the tick keeps it, and so does the tick.
-/

namespace Sys2Proof.Machine

/-- The invariant of everything but the master. -/
abbrev State.RestInv (s : State) : Prop :=
  s.params.Inv ∧ (∀ v ∈ s.slaves, v.Inv) ∧ Scan.Inv s.params.numScan s.scan ∧
  s.mailbox.line < s.params.numScan

theorem State.inv_iff {s : State} :
    s.Inv ↔ s.RestInv ∧ Master.Inv (s.params.threshold.getD 0) s.master :=
  ⟨fun ⟨hp, hm, hs, hc, hb⟩ => ⟨⟨hp, hs, hc, hb⟩, hm⟩, fun ⟨⟨hp, hs, hc, hb⟩, hm⟩ => ⟨hp, hm, hs, hc, hb⟩⟩

section Parameters
variable {p : Params}

/-- A configuration that is not refused has a scan line and a threshold of at least 2
(93_implementation_defined.md section 3). -/
theorem Params.Inv.ranges (h : p.Inv) : 0 < p.numScan ∧ ∃ n, p.threshold = some n ∧ 2 ≤ n := by
  obtain ⟨hr, -⟩ := h
  unfold Params.refusal at hr
  split_ifs at hr with _ _ _ hn
  cases ht : p.threshold with
  | none => simp [ht] at hr
  | some n => exact ⟨by omega, n, rfl, Nat.not_lt.1 fun hlt => by simp [ht, hlt] at hr⟩

end Parameters

section ScanEngine
variable {n : Nat} {c : Scan}

theorem Scan.reset_inv (hn : 0 < n) : (Scan.reset n).Inv n :=
  ⟨hn, List.length_replicate, Nat.zero_le _, nofun, nofun, rfl⟩

/-- The scan engine on `n` lines with every line released, whatever its phase. -/
structure Scan.Released (n : Nat) (c : Scan) : Prop where
  line : c.scIdx < n
  cache : c.cache.length = n
  count : c.scK ≤ 8
  drives : c.scDrv = List.replicate n false

/-- A tick first writes every drive to 0 (44_contact_scan.md R262). -/
theorem Scan.Inv.released (h : c.Inv n) :
    ({ c with scDrv := c.scDrv.map fun _ => false } : Scan).Released n := by
  obtain ⟨hi, hl, hk, -, -, hd⟩ := h
  refine ⟨hi, hl, hk, ?_⟩
  show (c.scDrv.map fun _ => false) = List.replicate n false
  rw [List.map_const', hd]
  split_ifs <;> simp

/-- `Finish` (44_contact_scan.md R263). -/
theorem Scan.Released.finish_inv (h : c.Released n) (hn : 0 < n) : (c.finish n).Inv n :=
  ⟨Nat.mod_lt _ hn, h.cache, h.count, nofun, nofun, h.drives⟩

/-- A `BIT` tick (44_contact_scan.md R262): the eighth bit is followed by the check bit. -/
theorem Scan.Released.takeBit_inv (h : c.Released n) (hk : c.scK < 8) (hv : c.scVal.toNat < 2 ^ c.scK)
    (b : Bool) : (c.takeBit b).Inv n := by
  by_cases h8 : c.scK + 1 = 8
  · have hph : (c.takeBit b).scPh = .check := if_pos h8
    exact ⟨h.line, h.cache, hk, by simp [hph], fun _ => h8, by simp [hph]; exact h.drives⟩
  · have hph : (c.takeBit b).scPh = .bit := if_neg h8
    refine ⟨h.line, h.cache, hk, fun _ => ⟨?_, toNat_or_bit_lt b hv⟩, by simp [hph],
      by simp [hph]; exact h.drives⟩
    show c.scK + 1 < 8
    omega

/-- `Report` (44_contact_scan.md R268) writes the cache and names the selected line. -/
theorem Scan.Released.report (h : c.Released n) {mb : Mailbox} (hmb : mb.line < n) :
    (report c mb).1.Released n ∧ (report c mb).2.line < n := by
  unfold Machine.report
  split_ifs
  · exact ⟨{ h with cache := List.length_set.trans h.cache }, h.line⟩
  · exact ⟨h, hmb⟩

/-- One tick of the scan engine (44_contact_scan.md R262 to R268), by its phase; a report in the
mailbox names a line there is. -/
theorem Scan.Inv.scanTick (h : c.Inv n) (hn : 0 < n) (b : Bool) {mb : Mailbox} (hmb : mb.line < n) :
    (scanTick n b c mb).1.Inv n ∧ (scanTick n b c mb).2.line < n := by
  have rel := h.released
  obtain ⟨-, -, -, hbit, -⟩ := h
  unfold Machine.scanTick
  cases hp : c.scPh with
  | pulse =>
    rw [hp] at rel
    refine ⟨⟨rel.line, rel.cache, rel.count, nofun, nofun, ?_⟩, hmb⟩
    exact congrArg (fun l => l.set c.scIdx true) rel.drives
  | rel =>
    rw [hp] at rel
    exact ⟨⟨rel.line, rel.cache, rel.count, nofun, nofun, rel.drives⟩, hmb⟩
  | probe =>
    rw [hp] at rel
    cases b
    · exact ⟨rel.finish_inv hn, hmb⟩
    · exact ⟨⟨rel.line, rel.cache, Nat.zero_le _, fun _ => ⟨Nat.zero_lt_succ _, Nat.one_pos⟩, nofun,
        rel.drives⟩, hmb⟩
  | bit =>
    rw [hp] at rel
    obtain ⟨hk, hval⟩ := hbit hp
    exact ⟨rel.takeBit_inv hk hval b, hmb⟩
  | check =>
    rw [hp] at rel
    cases b
    · exact ⟨rel.finish_inv hn, hmb⟩
    · obtain ⟨hrep, hline⟩ := rel.report hmb
      exact ⟨hrep.finish_inv hn, hline⟩

end ScanEngine

section System
variable {s t : State} {lv : Bool} {inp : TickInput}

/-- A slave of the invariant written over another keeps the system's. -/
theorem State.Inv.setSlave (h : s.Inv) (k : Nat) {v : Slave} (hv : v.Inv) : (s.setSlave k v).Inv := by
  obtain ⟨hp, hm, hs, hc, hb⟩ := h
  refine ⟨hp, hm, fun x hx => ?_, hc, hb⟩
  rcases List.mem_or_eq_of_mem_set hx with hx | rfl
  · exact hs x hx
  · exact hv

/-- A slave's part of a tick: it may be absent, held in reset, or take its step. -/
theorem slaveStep_eq_next {k : Nat} (h : slaveStep lv inp k s = .next t) :
    t = s ∨ ∃ v v' r, s.slaves[k]? = some v ∧ t = (s.setSlave k v').setReceiver r ∧ (v.Inv → v'.Inv) := by
  unfold slaveStep at h
  cases hk : s.slaves[k]? with
  | none =>
    simp only [hk] at h
    exact .inl (Host.Outcome.next.inj h).symm
  | some v =>
    simp only [hk] at h
    split_ifs at h
    · obtain rfl := Host.Outcome.next.inj h
      exact .inr ⟨v, _, s.receiver, rfl, rfl, fun _ => Slave.reset_inv _⟩
    · obtain ⟨v', r, ht, hv⟩ := slaveTick_eq_next hk h
      exact .inr ⟨v, v', r, rfl, ht, hv⟩

/-- What every slave's step keeps, the steps of a list of slaves keep. -/
theorem slaveSteps_keeps {P : State → Prop}
    (hP : ∀ k s t, P s → slaveStep lv inp k s = .next t → P t) :
    ∀ {ks s t}, P s → slaveSteps lv inp ks s = .next t → P t := by
  intro ks
  induction ks with
  | nil =>
    intro s t hs h
    exact Host.Outcome.next.inj h ▸ hs
  | cons k ks ih =>
    intro s t hs h
    obtain ⟨s', hs', h⟩ := andThen_eq_next.1 h
    exact ih (hP k s s' hs hs') h

theorem State.Inv.slaveStep {k : Nat} (h : s.Inv) (ht : slaveStep lv inp k s = .next t) : t.Inv := by
  rcases slaveStep_eq_next ht with rfl | ⟨v, v', r, hk, rfl, hv⟩
  · exact h
  · have parts := h
    obtain ⟨-, -, hslaves, -⟩ := parts
    exact h.setSlave k (hv (hslaves v (List.mem_of_getElem? hk)))

theorem State.Inv.scanStep (h : s.Inv) (b : Bool) : (scanStep b inp s).Inv := by
  unfold Machine.scanStep
  split_ifs
  · exact h
  · obtain ⟨hp, hm, hs, hc, hb⟩ := h
    obtain ⟨hn, -⟩ := hp.ranges
    obtain ⟨hscan, hline⟩ := hc.scanTick hn b hb
    exact ⟨hp, hm, hs, hscan, hline⟩

/-- The master with the scan engine and the mailbox held in reset (70_reset_and_hazards.md R350). -/
theorem State.Inv.resetMasterAgent (h : s.Inv) : s.resetMasterAgent.Inv := by
  obtain ⟨hp, -, hs, -, -⟩ := h
  obtain ⟨hn, -⟩ := hp.ranges
  exact ⟨hp, Master.reset_inv _, hs, Scan.reset_inv hn, hn⟩

theorem State.Inv.hostStep (h : s.Inv) (ht : hostStep inp s = .next t) : t.Inv := by
  obtain ⟨b, c, a, o, rfl⟩ := hostStep_eq_next ht
  exact h

end System

end Sys2Proof.Machine
end

section
/-!
PROOF. The master's tick, phase by phase, keeps the invariant of the system (42_master.md R161, R170 to
R194); with the other parts of the tick, so does a whole step.
-/

namespace Sys2Proof.Machine

section MasterPhases
variable {s t : State} {m m' : Master} {n : Nat}

/-- A decision tick (20_memory.md R75): the dispatch leaves the master ready, the decision gives a
master of the invariant. -/
theorem decisionSequence_inv (hs : s.RestInv) (hm : s.master.Ready) (h : decisionSequence s = .next t) :
    t.Inv := by
  obtain ⟨s', m, hs', hd, rfl⟩ := decisionSequence_eq_next h
  obtain ⟨b, tab, rfl, hmap, htab⟩ := dispatchMailbox_effect hs'
  have rest := hm.withTable (htab hm.table) hmap
  have ready : ({ s.master with tab := tab } : Master).Ready :=
    { rest with undriven := hm.undriven, noMarkers := hm.noMarkers, closed := hm.closed }
  exact State.inv_iff.2 ⟨hs, ready.masterDecide_inv hd⟩

/-- `mph = IDLE` (42_master.md R161). -/
theorem Master.Inv.setDrv_ready (h : m.Inv n) (hp : m.mph.fmode = .idle) : (m.setDrv false).Ready := by
  have rest := h.setDrv_atRest hp false
  have hne : m.mph ≠ .txMarker := by rintro hm; simp [hm, MPhase.fmode] at hp
  exact h.ready hne rest.framer rest.idle rfl

/-- Between two phases of a pulse the master drives the line exactly in `INV_B` (42_master.md R180). -/
theorem Master.Inv.pulse_inv (h : m.Inv n) (hp : m.mph = .invFirst ∨ m.mph = .invB) {p : MPhase}
    (hp' : p = .invB ∨ p = .invA) :
    ({ m.setDrv (decide (p = .invB)) with mph := p } : Master).Inv n := by
  have hidle : m.mph.fmode = .idle := by rcases hp with hp | hp <;> (rw [hp]; rfl)
  have hidle' : p.fmode = .idle := by rcases hp' with rfl | rfl <;> rfl
  have hinviting : m.mph.inviting = true := by rcases hp with hp | hp <;> (rw [hp]; rfl)
  have hgap : ¬ (p = .gapAssign ∨ p = .gapMarker) := by rcases hp' with rfl | rfl <;> simp
  have ready := h.setDrv_ready hidle
  have rest : ({ m.setDrv (decide (p = .invB)) with mph := p } : Master).AtRest :=
    { h.setDrv_atRest hidle _ with }
  obtain ⟨-, -, hst, -, -, -, -, -, -, -, ⟨hses, hfree, -⟩⟩ := h
  exact rest.inv_of_idle hidle' (hst.trans (MPhase.mstate_of_idle hidle)) rfl ready.noMarkers
    (fun hg => absurd hg hgap) (fun _ => hses (.inl hinviting)) (fun _ => hfree hinviting)

/-- `mph = INV_FIRST` (42_master.md R180). -/
theorem Master.Inv.invFirstTick (h : m.Inv n) (hp : m.mph = .invFirst) : (invFirstTick m).Inv n :=
  h.pulse_inv (.inl hp) (.inl rfl)

/-- `mph = INV_B` (42_master.md R181). -/
theorem Master.Inv.invBTick (h : m.Inv n) (hp : m.mph = .invB) : (invBTick m).Inv n :=
  h.pulse_inv (.inr hp) (.inr rfl)

/-- `mph = INV_A` (42_master.md R182): a presence, the end of enumeration, or the next pulse. -/
theorem invATick_inv {lv : Bool} (hs : s.Inv) (hp : s.master.mph = .invA)
    (h : invATick lv s = .next t) : t.Inv := by
  obtain ⟨others, hm⟩ := State.inv_iff.1 hs
  have hidle : s.master.mph.fmode = .idle := by rw [hp]; rfl
  have ready := hm.setDrv_ready hidle
  have driving := hm.setDrv_atRest hidle true
  obtain ⟨-, -, hst, -, -, -, -, -, -, -, ⟨hses, hfree, -⟩⟩ := hm
  rw [hp] at hst hses hfree
  unfold invATick at h
  split_ifs at h with hl he
  · obtain rfl := Host.Outcome.next.inj h
    have rest : ({ s.master.setDrv false with mph := .gapAssign, gapCnt := Config.gap } :
        Master).AtRest := { ready with gap := le_rfl }
    exact State.inv_iff.2 ⟨others, rest.inv_of_idle rfl hst rfl ready.noMarkers
      (fun _ => (by decide : 1 ≤ 66)) (fun _ => hses (.inl rfl)) (fun _ => hfree rfl)⟩
  · exact decisionSequence_inv (s := s.setMaster (s.master.setDrv false)) others ready h
  · obtain ⟨s', hs', h⟩ := andThen_eq_next.1 h
    obtain rfl := Host.Outcome.next.inj h
    obtain ⟨b, tab, rfl, hmap, htab⟩ := dispatchMailbox_effect hs'
    have rest : ({ s.master.setDrv true with tab := tab, mph := .invB } : Master).AtRest :=
      { driving.withTable (htab ready.table) hmap with }
    exact State.inv_iff.2 ⟨others, rest.inv_of_idle rfl hst rfl ready.noMarkers nofun
      (fun _ => hses (.inl rfl)) (fun _ => lowestFree_eq_of_map hmap ▸ hfree rfl)⟩

/-- The id assignment (42_master.md R183): the new entry is the polled one. -/
theorem Master.Ready.assignId_inv (h : m.Ready) (hm : assignId m = .next m') : m'.Inv n := by
  obtain ⟨i, hf, rfl⟩ := assignId_eq_next hm
  obtain ⟨hi, e, he, -⟩ := lowestFree_eq_some h.table.1 hf
  have hcon : connectedAt (setTabEntry m.tab i Entry.assigned) i = true :=
    connectedAt_setTabEntry_same he
  have rest : ({ m with tab := setTabEntry m.tab i Entry.assigned, cursor := i,
                        mstate := .awaitingHandshakeReply } : Master).AtRest :=
    { h with table := h.table.set Entry.assigned_inv, cursorInv := ⟨hi, fun _ => hcon⟩ }
  exact rest.sendingIn_inv h.undriven _ rfl rfl
    (fun _ => ⟨hcon, fun _ => tabEntry_setTabEntry_same _ he⟩) (h.noMarkers.trans_le (Nat.zero_le _))
    (fun _ => h.noMarkers) nofun nofun

/-- The start of a marker (42_master.md R184), with `mk_cnt` markers sent before it. -/
theorem Master.AtRest.armMarker_inv (h : m.AtRest) (hd : m.fr.drv = false)
    (hst : m.mstate = .acceptingConnections) (hses : m.session = true) (hmk : m.mkCnt ≤ 2)
    (hm : armMarker m = .next m') : m'.Inv n := by
  obtain rfl := armMarker_eq_next hm
  exact h.sendingIn_inv hd _ rfl hst nofun hmk (fun hne => absurd rfl hne) (fun _ => hses)
    (fun hpol => by simp [hst] at hpol)

/-- A gap tick leaves the master ready, and in its phase unless the count is used up. -/
theorem Master.Inv.countDown (h : m.Inv n) (hp : m.mph = .gapAssign ∨ m.mph = .gapMarker) :
    m.countDown.Ready ∧ (m.countDown.gapCnt ≠ 0 → m.countDown.Inv n) := by
  have hidle : m.mph.fmode = .idle := by rcases hp with hp | hp <;> (rw [hp]; rfl)
  have hb : m.mph ≠ .invB := by rcases hp with hp | hp <;> simp [hp]
  have ready := h.setDrv_ready hidle
  have ready' : m.countDown.Ready := { ready with gap := (Nat.sub_le _ _).trans ready.gap }
  refine ⟨ready', fun h0 => ?_⟩
  obtain ⟨-, -, hst, -, -, -, -, -, -, -, ⟨hses, hfree, -⟩⟩ := h
  exact ready'.inv_of_idle hidle (hst.trans (MPhase.mstate_of_idle hidle))
    (by simp [Master.countDown, hb]) ready'.noMarkers (fun _ => Nat.pos_of_ne_zero h0)
    (fun hs => hses (hs.imp_right .inl)) hfree

theorem Master.Inv.gapAssignTick (h : m.Inv n) (hp : m.mph = .gapAssign)
    (hm : gapAssignTick m = .next m') : m'.Inv n := by
  obtain ⟨ready, stays⟩ := h.countDown (.inl hp)
  rw [gapAssignTick_eq] at hm
  split_ifs at hm with h0
  · exact ready.assignId_inv hm
  · exact Host.Outcome.next.inj hm ▸ stays h0

theorem Master.Inv.gapMarkerTick (h : m.Inv n) (hp : m.mph = .gapMarker)
    (hm : gapMarkerTick m = .next m') : m'.Inv n := by
  obtain ⟨ready, stays⟩ := h.countDown (.inr hp)
  rw [gapMarkerTick_eq] at hm
  split_ifs at hm with h0
  · obtain ⟨-, -, hst, -, -, -, -, -, -, -, ⟨hses, -, -⟩⟩ := h
    rw [hp] at hst hses
    exact ready.armMarker_inv rfl hst (hses (.inr (.inl rfl))) (ready.noMarkers.trans_le (Nat.zero_le _))
      hm
  · exact Host.Outcome.next.inj hm ▸ stays h0

/-- The receive of a reply is armed on the tick that ends the poll (42_master.md R172). -/
theorem Master.Inv.armReply_inv (h : m.Inv n) (hp : m.mph = .txPoll) (hn : 0 < n) {f : Framer}
    (hf : f.Inv) (hd : f.drv = false) : ({ m with fr := f.seeking, mph := .rxReply } : Master).Inv n := by
  obtain ⟨-, -, hst, hpw, -, ht, hc, hpoll, -, ⟨hgap, -, hmk, hmk0⟩, ⟨-, -, hclosed⟩⟩ := h
  rw [hp] at hst hmk0
  exact ⟨hf.seeking hd, rfl, hst, hpw, fun _ => hn, ht, hc, fun _ => hpoll (.inl hp), nofun,
    ⟨hgap, nofun, hmk, fun _ => hmk0 nofun⟩, nofun, nofun, hclosed⟩

/-- The third marker is done (42_master.md R172). -/
theorem Master.AtRest.closeSession_ready (h : m.AtRest) (hd : m.fr.drv = false) :
    (closeSession m).Ready :=
  { h with undriven := hd, noMarkers := rfl, closed := fun _ => rfl }

/-- The follow-up of a completed transmit, by phase (42_master.md R172). -/
theorem txFollowUp_inv (hs : s.Inv) {f : Framer} (hf : f.Inv) (hi : f.fmode = .idle) (hd : f.drv = false)
    (hp : s.master.mph.fmode = .tx) (h : txFollowUp (s.setMasterFramer f) = .next t) : t.Inv := by
  obtain ⟨others, hm⟩ := State.inv_iff.1 hs
  cases hph : s.master.mph with
  | txPoll =>
    rw [txFollowUp_poll (s := s.setMasterFramer f) hph] at h
    obtain ⟨m', hm', h⟩ := andThen_eq_next.1 h
    obtain ⟨-, rfl⟩ := Master.armRx_eq_next.1 hm'
    obtain rfl := Host.Outcome.next.inj h
    obtain ⟨-, k, hk, hk2⟩ := others.1.ranges
    have hpos : 0 < s.params.threshold.getD 0 := by simp only [hk, Option.getD_some]; omega
    exact State.inv_iff.2 ⟨others, hm.armReply_inv hph hpos hf hd⟩
  | txBcast =>
    rw [txFollowUp_bcast (s := s.setMasterFramer f) hph] at h
    exact decisionSequence_inv (s := s.setMasterFramer f) others (hm.ready (by simp [hph]) hf hi hd) h
  | txAnnounce =>
    rw [txFollowUp_announce (s := s.setMasterFramer f) hph] at h
    refine decisionSequence_inv ?_ ?_ h
    · exact others
    · exact { hm.ready (by simp [hph]) hf hi hd with closed := nofun }
  | txMarker =>
    rw [txFollowUp_marker (s := s.setMasterFramer f) hph] at h
    have rest := hm.atRest hf hi
    split_ifs at h with hk
    · obtain ⟨-, -, hst, -, -, -, -, -, -, -, ⟨hses, -, -⟩⟩ := hm
      rw [hph] at hst
      obtain ⟨m', hm', h⟩ := andThen_eq_next.1 h
      obtain rfl := Host.Outcome.next.inj h
      have counted : ({ s.master with fr := f, mkCnt := s.master.mkCnt + 1 } : Master).AtRest :=
        { rest with }
      exact State.inv_iff.2
        ⟨others, counted.armMarker_inv hd hst (hses (.inr (.inr hph))) (Nat.le_of_lt_succ hk) hm'⟩
    · refine decisionSequence_inv ?_ ?_ h
      · exact others
      · exact rest.closeSession_ready hd
  | _ => rw [hph] at hp; cases hp

/-- A transmit phase (42_master.md R161): the frame goes on, or its follow-up is run. -/
theorem masterTxTick_inv (hs : s.Inv) (hp : s.master.mph.fmode = .tx) (h : masterTxTick s = .next t) :
    t.Inv := by
  obtain ⟨rest, hm⟩ := State.inv_iff.1 hs
  have parts := hm
  obtain ⟨hf, hmode, -⟩ := parts
  rw [masterTxTick_eq] at h
  rcases hf.txTick (hmode.trans hp) with ⟨g, hg, hgi, hgm, -⟩ | ⟨g, hg, hgi, hgm, hgd⟩
  · simp only [hg] at h
    obtain rfl := Host.Outcome.next.inj h
    exact State.inv_iff.2 ⟨rest, hm.withFramer (by simp [hp]) hgi (hgm.trans hp.symm)
      (fun hr => by simp [hgm] at hr)⟩
  · simp only [hg, if_true] at h
    exact txFollowUp_inv hs hgi hgm hgd hp h

/-- The reply is complete (42_master.md R185): faulted or accepted, the master may decide. -/
theorem completeReply_ready (hs : s.RestInv) (hm : s.master.Ready)
    (hcon : connectedAt s.master.tab s.master.cursor = true) (h : completeReply s = .next t) :
    t.RestInv ∧ t.master.Ready := by
  obtain ⟨r, m, e, rfl, he, ⟨code, rfl⟩ | ⟨data, endm, e', hstage, rfl⟩⟩ := completeReply_eq_next h
  · exact ⟨hs, hm.faulted code⟩
  · have hc : e.connected = true := (connectedAt_of_tabEntry he).symm.trans hcon
    obtain ⟨hi', hc'⟩ := (hm.table.entry he).stageRule hc hstage
    exact ⟨hs, hm.accepted endm he hi' hc'⟩

/-- `mph = RX_REPLY` (42_master.md R161, R172): the receive goes on, or the reply is handled and the
master decides. -/
theorem masterRxTick_inv {lv : Bool} (hs : s.Inv) (hp : s.master.mph = .rxReply)
    (h : masterRxTick lv s = .next t) : t.Inv := by
  obtain ⟨rest, hm⟩ := State.inv_iff.1 hs
  have parts := hm
  obtain ⟨hf, hmode, -, -, hfails, -, -, hpoll, -⟩ := parts
  have hrx : s.master.fr.fmode = .rx := by rw [hmode, hp]; rfl
  have hbelow : ∀ k, s.params.threshold = some k → s.master.fr.fails < k := fun k hk => by
    simpa [hk] using hfails hrx
  rw [masterRxTick_eq] at h
  rcases hf.rxTick hrx hbelow lv with ⟨g, hg, hgi, hgm, hgf⟩ | ⟨g, hg, hgi, hgm, hgd⟩
  · simp only [hg] at h
    obtain rfl := Host.Outcome.next.inj h
    obtain ⟨-, k, hk, -⟩ := rest.1.ranges
    exact State.inv_iff.2 ⟨rest, hm.withFramer (by simp [hp, MPhase.fmode]) hgi (by rw [hgm, hp]; rfl)
      (fun _ => by simpa [hk] using hgf k hk)⟩
  · simp only [hg, if_true] at h
    obtain ⟨s', hs', h⟩ := andThen_eq_next.1 h
    obtain ⟨rest', ready'⟩ := completeReply_ready (s := s.setMasterFramer g) rest
      (hm.ready (by simp [hp]) hgi hgm hgd) (hpoll (.inr hp)).1 hs'
    exact decisionSequence_inv rest' ready' h

/-- One tick of the master (42_master.md R161). -/
theorem State.Inv.masterTick {lv : Bool} (hs : s.Inv) (h : masterTick lv s = .next t) : t.Inv := by
  obtain ⟨rest, hm⟩ := State.inv_iff.1 hs
  unfold Machine.masterTick at h
  cases hp : s.master.mph with
  | idle =>
    simp only [hp] at h
    exact decisionSequence_inv (s := s.setMaster (s.master.setDrv false)) rest
      (hm.setDrv_ready (by rw [hp]; rfl)) h
  | invFirst =>
    simp only [hp] at h
    exact Host.Outcome.next.inj h ▸ State.inv_iff.2 ⟨rest, hm.invFirstTick hp⟩
  | invB =>
    simp only [hp] at h
    exact Host.Outcome.next.inj h ▸ State.inv_iff.2 ⟨rest, hm.invBTick hp⟩
  | invA =>
    simp only [hp] at h
    exact invATick_inv hs hp h
  | gapAssign =>
    simp only [hp] at h
    obtain ⟨m', hm', h⟩ := andThen_eq_next.1 h
    exact Host.Outcome.next.inj h ▸ State.inv_iff.2 ⟨rest, hm.gapAssignTick hp hm'⟩
  | gapMarker =>
    simp only [hp] at h
    obtain ⟨m', hm', h⟩ := andThen_eq_next.1 h
    exact Host.Outcome.next.inj h ▸ State.inv_iff.2 ⟨rest, hm.gapMarkerTick hp hm'⟩
  | rxReply =>
    simp only [hp] at h
    exact masterRxTick_inv hs hp h
  | _ =>
    simp only [hp] at h
    exact masterTxTick_inv hs (by rw [hp]; rfl) h

end MasterPhases

section Step
variable {s t : State}

/-- The master's part of a tick (70_reset_and_hazards.md R350, log 10): held in reset, or the host
command and its own tick. -/
theorem State.Inv.masterStep {lv : Bool} {inp : TickInput} (hs : s.Inv)
    (h : masterStep lv inp s = .next t) : t.Inv := by
  unfold Machine.masterStep at h
  split_ifs at h
  · obtain ⟨s', hs', h⟩ := andThen_eq_next.1 h
    exact Host.Outcome.next.inj h ▸ (hs.resetMasterAgent.hostStep hs').resetMasterAgent
  · obtain ⟨s', hs', h⟩ := andThen_eq_next.1 h
    exact (hs.hostStep hs').masterTick h

/-- Settles O59: every part of the tick keeps the invariant. -/
theorem stepKeepsInvariant : Obligations.StepKeepsInvariant := by
  intro s t hs h
  obtain ⟨-, s1, s2, h1, h2, rfl⟩ := tick_eq_next h
  have inv0 : (s.setHostOut none).Inv := hs
  have inv1 : s1.Inv := inv0.masterStep h1
  have inv2 : s2.Inv := slaveSteps_keeps (fun _ _ _ hu ht => hu.slaveStep ht) inv1 h2
  exact inv2.scanStep (s.scanLevel s.scan.scIdx)

end Step

section Reset

/-- The parameters at reset are in their ranges, whatever the open ones are (00_scope.md R10). -/
theorem Params.reset_inv : Params.reset.Inv := by
  refine ⟨by simp [Params.refusal, Params.reset, Config.identLen], fun r hr => ?_⟩
  obtain ⟨row, -, rfl⟩ := List.mem_map.1 hr
  have hdev : (BitVec.ofNat 8 (row.2.2.1.val + 1)).toNat = row.2.2.1.val + 1 := by
    rw [BitVec.toNat_ofNat]; omega
  simp only [assignable, hdev, Config.maxId]
  exact decide_eq_true (by omega)

/-- Settles O58: each agent's reset values meet its part of the invariant. -/
theorem invariantAtReset : Obligations.InvariantAtReset := by
  refine ⟨Params.reset_inv, Master.reset_inv _, fun v hv => ?_, Scan.reset_inv (Nat.succ_pos _),
    Nat.succ_pos _⟩
  obtain rfl := List.mem_singleton.1 hv
  exact Slave.reset_inv _

/-- Settles O48: the reset values of the model are the values of the table of R46, agent by agent. -/
theorem resetValues : Obligations.ResetValues := by
  refine ⟨rfl, fun v hv => ?_, rfl, rfl⟩
  obtain rfl := List.mem_singleton.1 hv
  rfl

end Reset

end Sys2Proof.Machine
end

section
/-!
PROOF. Who writes `enum_en` and the power drive (10_state.md R30, R34): no operation of the master's own
tick writes either, the slaves and the scan engine do not reach the master at all, and a host command
writes `enum_en` as its name says.
-/

namespace Sys2Proof.Machine

/-- `m'` has the `enum_en` and the power drive of `m`. -/
def Master.SameSwitches (m m' : Master) : Prop := m'.enumEn = m.enumEn ∧ m'.pwrDrv = m.pwrDrv

section MasterSwitches
variable {m m' : Master} {s t : State} {lv : Bool}

theorem Master.SameSwitches.rfl : m.SameSwitches m := ⟨Eq.refl _, Eq.refl _⟩

theorem Master.SameSwitches.trans {m'' : Master} (h : m.SameSwitches m') (h' : m'.SameSwitches m'') :
    m.SameSwitches m'' :=
  ⟨h'.1.trans h.1, h'.2.trans h.2⟩

theorem decideInvite_switches (m : Master) : m.SameSwitches (decideInvite m) := by
  unfold decideInvite
  cases lowestFree m.tab <;> exact .rfl

theorem decidePolling_switches (h : decidePolling m = .next m') : m.SameSwitches m' := by
  obtain ⟨-, ⟨-, rfl⟩ | ⟨-, -, rfl⟩ | ⟨-, -, e, -, rfl⟩⟩ := decidePolling_eq_next h
  · exact .rfl
  · exact .rfl
  · exact .rfl

theorem masterDecide_switches (h : masterDecide m = .next m') : m.SameSwitches m' := by
  cases hst : m.mstate with
  | acceptingConnections =>
    rw [masterDecide_accepting hst] at h
    split_ifs at h
    · exact Host.Outcome.next.inj h ▸ decideInvite_switches m
    · exact Host.Outcome.next.inj h ▸ .rfl
    · exact decidePolling_switches (m := { m with mstate := .polling }) h
    · exact Host.Outcome.next.inj h ▸ .rfl
  | polling =>
    rw [masterDecide_polling hst] at h
    split_ifs at h
    · exact Host.Outcome.next.inj h ▸ decideInvite_switches { m with mstate := .acceptingConnections }
    · exact Host.Outcome.next.inj h ▸ .rfl
    · exact Host.Outcome.next.inj h ▸ .rfl
    · exact decidePolling_switches h
  | awaitingHandshakeReply => simp [masterDecide_awaiting hst] at h

theorem decisionSequence_switches (h : decisionSequence s = .next t) :
    s.master.SameSwitches t.master := by
  obtain ⟨s', m, hs', hm, rfl⟩ := decisionSequence_eq_next h
  obtain ⟨b, tab, rfl, -, -⟩ := dispatchMailbox_effect hs'
  exact masterDecide_switches (m := { s.master with tab := tab }) hm

theorem gapAssignTick_switches (h : gapAssignTick m = .next m') : m.SameSwitches m' := by
  rw [gapAssignTick_eq] at h
  split_ifs at h
  · obtain ⟨i, -, rfl⟩ := assignId_eq_next h
    exact .rfl
  · exact Host.Outcome.next.inj h ▸ .rfl

theorem gapMarkerTick_switches (h : gapMarkerTick m = .next m') : m.SameSwitches m' := by
  rw [gapMarkerTick_eq] at h
  split_ifs at h
  · exact armMarker_eq_next h ▸ .rfl
  · exact Host.Outcome.next.inj h ▸ .rfl

theorem invATick_switches (h : invATick lv s = .next t) : s.master.SameSwitches t.master := by
  unfold invATick at h
  split_ifs at h
  · exact Host.Outcome.next.inj h ▸ .rfl
  · exact decisionSequence_switches (s := s.setMaster (s.master.setDrv false)) h
  · obtain ⟨s', hs', h⟩ := andThen_eq_next.1 h
    obtain ⟨b, tab, rfl, -, -⟩ := dispatchMailbox_effect hs'
    exact Host.Outcome.next.inj h ▸ .rfl

theorem txFollowUp_switches (h : txFollowUp s = .next t) : s.master.SameSwitches t.master := by
  cases hp : s.master.mph with
  | txPoll =>
    rw [txFollowUp_poll hp] at h
    obtain ⟨m', hm', h⟩ := andThen_eq_next.1 h
    obtain ⟨-, rfl⟩ := Master.armRx_eq_next.1 hm'
    exact Host.Outcome.next.inj h ▸ .rfl
  | txBcast => exact decisionSequence_switches (txFollowUp_bcast hp ▸ h)
  | txAnnounce =>
    rw [txFollowUp_announce hp] at h
    exact decisionSequence_switches
      (s := s.setMaster { s.master with mstate := .acceptingConnections, session := true }) h
  | txMarker =>
    rw [txFollowUp_marker hp] at h
    split_ifs at h
    · obtain ⟨m', hm', h⟩ := andThen_eq_next.1 h
      exact Host.Outcome.next.inj h ▸ armMarker_eq_next hm' ▸ .rfl
    · exact decisionSequence_switches (s := s.setMaster (closeSession s.master)) h
  | _ =>
    rw [txFollowUp_other (by simp [hp, MPhase.fmode])] at h
    exact Host.Outcome.next.inj h ▸ .rfl

theorem masterTxTick_switches (h : masterTxTick s = .next t) : s.master.SameSwitches t.master := by
  rw [masterTxTick_eq] at h
  split_ifs at h
  · exact txFollowUp_switches (s := s.setMasterFramer s.master.fr.txTick.1) h
  · exact Host.Outcome.next.inj h ▸ .rfl

theorem completeReply_switches (h : completeReply s = .next t) : s.master.SameSwitches t.master := by
  obtain ⟨r, m, e, rfl, -, ⟨code, rfl⟩ | ⟨data, endm, e', -, rfl⟩⟩ := completeReply_eq_next h
  · exact .rfl
  · exact .rfl

theorem masterRxTick_switches (h : masterRxTick lv s = .next t) : s.master.SameSwitches t.master := by
  rw [masterRxTick_eq] at h
  split_ifs at h
  · obtain ⟨s', hs', h⟩ := andThen_eq_next.1 h
    exact (completeReply_switches hs').trans (decisionSequence_switches h)
  · exact Host.Outcome.next.inj h ▸ .rfl

/-- The master's own tick writes neither (42_master.md R161). -/
theorem masterTick_switches (h : masterTick lv s = .next t) : s.master.SameSwitches t.master := by
  unfold masterTick at h
  cases hp : s.master.mph with
  | idle =>
    simp only [hp] at h
    exact decisionSequence_switches (s := s.setMaster (s.master.setDrv false)) h
  | invFirst =>
    simp only [hp] at h
    exact Host.Outcome.next.inj h ▸ .rfl
  | invB =>
    simp only [hp] at h
    exact Host.Outcome.next.inj h ▸ .rfl
  | invA =>
    simp only [hp] at h
    exact invATick_switches h
  | gapAssign =>
    simp only [hp] at h
    obtain ⟨m', hm', h⟩ := andThen_eq_next.1 h
    exact Host.Outcome.next.inj h ▸ gapAssignTick_switches hm'
  | gapMarker =>
    simp only [hp] at h
    obtain ⟨m', hm', h⟩ := andThen_eq_next.1 h
    exact Host.Outcome.next.inj h ▸ gapMarkerTick_switches hm'
  | rxReply =>
    simp only [hp] at h
    exact masterRxTick_switches h
  | _ =>
    simp only [hp] at h
    exact masterTxTick_switches h

end MasterSwitches

section StepSwitches
variable {s t : State} {lv : Bool} {inp : TickInput}

/-- A slave's part of a tick does not write the master's registers (20_memory.md R75). -/
theorem slaveStep_master {k : Nat} (h : slaveStep lv inp k s = .next t) : t.master = s.master := by
  rcases slaveStep_eq_next h with rfl | ⟨v, v', r, -, rfl, -⟩
  · rfl
  · rfl

theorem slaveSteps_master {ks : List Nat} (h : slaveSteps lv inp ks s = .next t) : t.master = s.master :=
  slaveSteps_keeps (P := fun u => u.master = s.master)
    (fun _ _ _ hu ht => (slaveStep_master ht).trans hu) rfl h

@[simp] theorem scanStep_master (b : Bool) (inp : TickInput) (s : State) :
    (scanStep b inp s).master = s.master := by
  unfold scanStep
  split_ifs <;> rfl

/-- Settles O56: of the parts of a tick only the host command writes `enum_en`, and none the power
drive. -/
theorem hostAloneWritesEnable : Obligations.HostAloneWritesEnable := by
  intro s t h hreset
  obtain ⟨-, s1, s2, h1, h2, rfl⟩ := tick_eq_next h
  rw [endTick_master, scanStep_master, slaveSteps_master h2]
  unfold masterStep at h1
  rw [hreset] at h1
  obtain ⟨s0, h0, h1⟩ := andThen_eq_next.1 h1
  obtain ⟨b, c, a, o, rfl⟩ := hostStep_eq_next h0
  exact masterTick_switches h1

end StepSwitches

end Sys2Proof.Machine
end

section
/-!
PROOF. The derived functions of the device table are the ones 10_state.md R48 defines. Every clause
comes down to one fact: in a table of 254 entries `connectedAt` at id `j + 1` is `Entry.connected` at
position `j`.
-/

namespace Sys2Proof.Machine

variable {t : List Entry} {c i : Byte}

/-- Position `j` of the table holds the entry of id `j + 1` (10_state.md R33). -/
theorem connectedAt_ofNat {j : Nat} (hj : j < t.length) (hl : t.length = 254) :
    connectedAt t (BitVec.ofNat 8 (j + 1)) = t[j].connected := by
  have hid : (BitVec.ofNat 8 (j + 1)).toNat = j + 1 := by
    rw [BitVec.toNat_ofNat]; omega
  refine connectedAt_of_tabEntry (tabEntry_eq_some.2 ?_)
  rw [hid]
  exact ⟨by omega, by simp⟩

theorem map_connected_eq (hl : t.length = 254) :
    t.map Entry.connected = (List.range 254).map fun j => connectedAt t (BitVec.ofNat 8 (j + 1)) := by
  apply List.ext_getElem (by simp [hl])
  intro j h1 h2
  simpa using (connectedAt_ofNat (by simpa using h1) hl).symm

/-- `connected_count` counts the connected ids. -/
theorem connectedCount_eq_filter (hl : t.length = 254) :
    connectedCount t =
      ((List.range 254).filter fun j => connectedAt t (BitVec.ofNat 8 (j + 1))).length := by
  calc connectedCount t
      = (t.map Entry.connected).countP id := by rw [List.countP_map]; rfl
    _ = (List.range 254).countP fun j => connectedAt t (BitVec.ofNat 8 (j + 1)) := by
        rw [map_connected_eq hl, List.countP_map]; rfl
    _ = _ := List.countP_eq_length_filter

/-- An id is its position plus 1. -/
theorem ofNat_toNat_pred (hi : 1 ≤ i.toNat) : BitVec.ofNat 8 (i.toNat - 1 + 1) = i := by
  rw [Nat.sub_add_cancel hi, BitVec.ofNat_toNat, BitVec.setWidth_eq]

/-- `lowest_free` is the least disconnected id. -/
theorem lowestFree_eq_some_iff (hl : t.length = 254) :
    lowestFree t = some i ↔
      1 ≤ i.toNat ∧ i.toNat ≤ 254 ∧ connectedAt t i = false ∧
      ∀ j : Byte, 1 ≤ j.toNat → j.toNat < i.toNat → connectedAt t j = true := by
  simp only [lowestFree, Option.map_eq_some_iff, List.findIdx?_eq_some_iff_getElem]
  constructor
  · rintro ⟨p, ⟨hp, hfree, hbelow⟩, rfl⟩
    have hid : (BitVec.ofNat 8 (p + 1)).toNat = p + 1 := by rw [BitVec.toNat_ofNat]; omega
    rw [hid, connectedAt_ofNat hp hl]
    refine ⟨by omega, by omega, by simpa using hfree, fun j hj hjp => ?_⟩
    rw [← ofNat_toNat_pred hj, connectedAt_ofNat (by omega) hl]
    simpa using hbelow (j.toNat - 1) (by omega)
  · rintro ⟨h1, h254, hfree, hbelow⟩
    refine ⟨i.toNat - 1, ⟨by omega, ?_, fun q hq => ?_⟩, ofNat_toNat_pred h1⟩
    · rw [← connectedAt_ofNat _ hl, ofNat_toNat_pred h1, hfree]
      rfl
    · have hid : (BitVec.ofNat 8 (q + 1)).toNat = q + 1 := by rw [BitVec.toNat_ofNat]; omega
      have hcon := hbelow (BitVec.ofNat 8 (q + 1)) (by omega) (by omega)
      rw [connectedAt_ofNat (by omega) hl] at hcon
      simp [hcon]

/-- `lowest_free` is None exactly when every id is connected. -/
theorem lowestFree_eq_none_iff (hl : t.length = 254) :
    lowestFree t = none ↔
      ∀ j : Byte, 1 ≤ j.toNat → j.toNat ≤ 254 → connectedAt t j = true := by
  simp only [lowestFree, Option.map_eq_none_iff, List.findIdx?_eq_none_iff]
  constructor
  · intro hall j h1 h254
    rw [← ofNat_toNat_pred h1, connectedAt_ofNat (by omega) hl]
    simpa using hall _ (List.getElem_mem (by omega))
  · intro hall e he
    obtain ⟨p, hp, rfl⟩ := List.getElem_of_mem he
    have hid : (BitVec.ofNat 8 (p + 1)).toNat = p + 1 := by rw [BitVec.toNat_ofNat]; omega
    have hcon := hall (BitVec.ofNat 8 (p + 1)) (by omega) (by omega)
    rw [connectedAt_ofNat hp hl] at hcon
    simp [hcon]

/-- The `k`-th id in cyclic order after `c` is an id. -/
theorem cyclicId_toNat (c : Byte) (k : Nat) : (cyclicId c k).toNat = (c.toNat + k) % 254 + 1 := by
  simp only [cyclicId, Config.maxId, BitVec.toNat_ofNat]
  omega

/-- `next_conn` is the first connected id in cyclic order. -/
theorem nextConn_eq_some_iff :
    nextConn t c = some i ↔
      connectedAt t i = true ∧ ∃ k, k < 254 ∧ i.toNat = (c.toNat + k) % 254 + 1 ∧
        ∀ l, l < k → connectedAt t (BitVec.ofNat 8 ((c.toNat + l) % 254 + 1)) = false := by
  simp only [nextConn, List.find?_map, Option.map_eq_some_iff, List.find?_range_eq_some, List.mem_range,
    Function.comp_apply, Bool.not_eq_true']
  constructor
  · rintro ⟨k, ⟨hcon, hk, hbefore⟩, rfl⟩
    exact ⟨hcon, k, hk, cyclicId_toNat c k, hbefore⟩
  · rintro ⟨hcon, k, hk, hid, hbefore⟩
    obtain rfl : cyclicId c k = i := BitVec.eq_of_toNat_eq ((cyclicId_toNat c k).trans hid.symm)
    exact ⟨k, ⟨hcon, hk, hbefore⟩, rfl⟩

/-- `next_conn` is None exactly when nothing is connected. -/
theorem nextConn_eq_none_iff (hl : t.length = 254) : nextConn t c = none ↔ connectedCount t = 0 := by
  constructor
  · intro hn
    by_contra hc
    obtain ⟨i, hi⟩ := nextConn_isSome (c := c) hl hc
    simp [hn] at hi
  · intro hc
    cases hn : nextConn t c with
    | none => rfl
    | some i => exact absurd hc (connectedCount_pos (connectedAt_of_nextConn hn)).ne'

/-- Settles O24, function by function. -/
theorem derivedTableFunctions : Obligations.DerivedTableFunctions := by
  intro t hl
  exact ⟨connectedCount_eq_filter hl, fun _ => lowestFree_eq_some_iff hl, lowestFree_eq_none_iff hl,
    fun _ _ _ => ⟨fun _ => nextConn_eq_some_iff, nextConn_eq_none_iff hl⟩⟩

end Sys2Proof.Machine
end

section
/-!
PROOF. A packet word and its four fields are the same thing (30_encoding.md R91), so the packet
instructions are exactly the words: reading a word and writing an instruction's word are inverse to each
other.
-/

namespace Sys2Proof

section Fields
variable (uid cmd arg c : Byte)

@[simp] theorem uidOf_wordOf : uidOf (wordOf uid cmd arg c) = uid := BitVec.extractLsb'_append_eq_right

@[simp] theorem cmdOf_wordOf : cmdOf (wordOf uid cmd arg c) = cmd :=
  calc cmdOf (wordOf uid cmd arg c)
      = (c ++ arg ++ cmd).extractLsb' 0 8 := BitVec.extractLsb'_append_eq_of_le (by decide)
    _ = cmd := BitVec.extractLsb'_append_eq_right

@[simp] theorem argOf_wordOf : argOf (wordOf uid cmd arg c) = arg :=
  calc argOf (wordOf uid cmd arg c)
      = (c ++ arg ++ cmd).extractLsb' 8 8 := BitVec.extractLsb'_append_eq_of_le (by decide)
    _ = (c ++ arg).extractLsb' 0 8 := BitVec.extractLsb'_append_eq_of_le (by decide)
    _ = arg := BitVec.extractLsb'_append_eq_right

@[simp] theorem cksOf_wordOf : cksOf (wordOf uid cmd arg c) = c :=
  calc cksOf (wordOf uid cmd arg c)
      = (c ++ arg ++ cmd).extractLsb' 16 8 := BitVec.extractLsb'_append_eq_of_le (by decide)
    _ = (c ++ arg).extractLsb' 8 8 := BitVec.extractLsb'_append_eq_of_le (by decide)
    _ = c := BitVec.extractLsb'_append_eq_left

end Fields

/-- The fields of a word, put back at their places, are the word. -/
theorem wordOf_fields (w : Word) : wordOf (uidOf w) (cmdOf w) (argOf w) (cksOf w) = w := by
  have high : cksOf w ++ argOf w = w.extractLsb' 16 16 :=
    BitVec.extractLsb'_append_extractLsb'_eq_extractLsb' rfl
  have upper : w.extractLsb' 16 16 ++ cmdOf w = w.extractLsb' 8 24 :=
    BitVec.extractLsb'_append_extractLsb'_eq_extractLsb' rfl
  have whole : w.extractLsb' 8 24 ++ uidOf w = w.extractLsb' 0 32 :=
    BitVec.extractLsb'_append_extractLsb'_eq_extractLsb' rfl
  calc wordOf (uidOf w) (cmdOf w) (argOf w) (cksOf w)
      = (cksOf w ++ argOf w) ++ cmdOf w ++ uidOf w := rfl
    _ = w := by rw [high, upper, whole, BitVec.extractLsb'_eq_self]

/-- The decoder reads a word from its record's bytes (20_memory.md R66). -/
theorem decode_fields (w : Word) :
    decode .line [uidOf w, cmdOf w, argOf w, cksOf w] = .ok (decodeWord w) :=
  congrArg (fun x => Except.ok (decodeWord x)) (wordOf_fields w)

/-- Every word is a well-formed packet instruction whose word it is: the rows of the opcode map and the
unrecognised range leave no command byte out (30_encoding.md R100, R102). -/
theorem decodeWord_isPacketOf (w : Word) :
    (decodeWord w).source = .line ∧ (decodeWord w).wf = true ∧ (decodeWord w).word = w := by
  have row (op : Byte) (h : (cmdOf w).toNat = op.toNat) : wordOf (uidOf w) op (argOf w) (cksOf w) = w :=
    BitVec.eq_of_toNat_eq h ▸ wordOf_fields w
  unfold decodeWord
  split
  case h_19 =>
    have above : ¬ (cmdOf w).toNat ≤ 0x11 := by grind
    exact ⟨rfl, by simp [Instr.wf, recognised, above], wordOf_fields w⟩
  all_goals exact ⟨rfl, rfl, row _ ‹_›⟩

/-- A well-formed packet instruction is read back from its word: an opcode of the map selects its own row,
a command byte above 0x11 the unrecognised one. -/
theorem decodeWord_word {j : Instr} (hs : j.source = .line) (hwf : j.wf = true) :
    decodeWord j.word = j := by
  cases j with
  | hostLight1 | hostLight0 | hostMotor | hostBitmap | hostEnable | hostCancel | hostLastFault => cases hs
  | unrecognised uid cmd arg c =>
    change decodeWord (wordOf uid cmd arg c) = _
    have above : ¬ cmd.toNat ≤ 0x11 := by simpa [Instr.wf, recognised] using hwf
    unfold decodeWord
    rw [uidOf_wordOf, cmdOf_wordOf, argOf_wordOf, cksOf_wordOf]
    split
    case h_19 => rfl
    all_goals omega
  | _ =>
    simp only [Instr.word, encode, packetBytes, wordOfBytes, decodeWord, uidOf_wordOf, cmdOf_wordOf,
      argOf_wordOf, cksOf_wordOf]
    rfl

/-- Settles O2: the instruction of a word is the one the decoder reads, and it determines the word. -/
theorem everyWordIsOnePacket : Obligations.EveryWordIsOnePacket := by
  intro w
  obtain ⟨hs, hwf, hw⟩ := decodeWord_isPacketOf w
  refine ⟨decodeWord w, decode_fields w, hs, hwf, hw, fun j hjs hjwf hjw => ?_⟩
  exact hjw ▸ (decodeWord_word hjs hjwf).symm

end Sys2Proof
end

section
/-!
PROOF. A tick, cut at the agents: the master's part reaches no slave, a slave's part reaches no other one,
and a slave's own step (`Slave.ownStep`) reads its registers, the level of the line and its reset input
(20_memory.md R73, R75).
-/

namespace Sys2Proof.Machine

/-- `t` is `s` but for the master's registers, the mailbox and the receiver of a packet: all that the
master's own tick may write (20_memory.md R75). -/
def State.MasterOnly (s t : State) : Prop :=
  ∃ m b r, t = { s with master := m, mailbox := b, receiver := r }

section MasterFrame
variable {s t : State} {lv : Bool} {inp : TickInput}

theorem State.MasterOnly.setMaster (s : State) (m : Master) : s.MasterOnly (s.setMaster m) :=
  ⟨m, s.mailbox, s.receiver, rfl⟩

theorem State.MasterOnly.rfl : s.MasterOnly s := .setMaster s s.master

theorem State.MasterOnly.trans {u : State} (h : s.MasterOnly t) (h' : t.MasterOnly u) :
    s.MasterOnly u := by
  obtain ⟨m, b, r, rfl⟩ := h
  obtain ⟨m', b', r', rfl⟩ := h'
  exact ⟨m', b', r', Eq.refl _⟩

theorem State.MasterOnly.slaves (h : s.MasterOnly t) : t.slaves = s.slaves := by
  obtain ⟨m, b, r, rfl⟩ := h
  rfl

theorem dispatchMailbox_masterOnly (h : dispatchMailbox s = .next t) : s.MasterOnly t := by
  obtain ⟨b, tab, rfl, -⟩ := dispatchMailbox_effect h
  exact ⟨_, _, _, rfl⟩

theorem decisionSequence_masterOnly (h : decisionSequence s = .next t) : s.MasterOnly t := by
  obtain ⟨s', m, hs', -, rfl⟩ := decisionSequence_eq_next h
  exact (dispatchMailbox_masterOnly hs').trans (.setMaster s' m)

/-- A decision of a master that has moved on, within the tick that moved it. -/
theorem decisionSequence_setMaster_masterOnly {m : Master}
    (h : decisionSequence (s.setMaster m) = .next t) : s.MasterOnly t :=
  (State.MasterOnly.setMaster s m).trans (decisionSequence_masterOnly h)

/-- A part of the tick that answers the master's registers only. -/
theorem setMaster_masterOnly {o : Res Master} {f : Master → Master}
    (h : andThen o (fun m => .next (s.setMaster (f m))) = .next t) : s.MasterOnly t := by
  obtain ⟨m, -, h⟩ := andThen_eq_next.1 h
  exact Host.Outcome.next.inj h ▸ .setMaster s (f m)

theorem invATick_masterOnly (h : invATick lv s = .next t) : s.MasterOnly t := by
  unfold invATick at h
  split_ifs at h
  · exact Host.Outcome.next.inj h ▸ .setMaster s _
  · exact decisionSequence_setMaster_masterOnly h
  · obtain ⟨s', hs', h⟩ := andThen_eq_next.1 h
    exact Host.Outcome.next.inj h ▸ (dispatchMailbox_masterOnly hs').trans (.setMaster s' _)

theorem txFollowUp_masterOnly (h : txFollowUp s = .next t) : s.MasterOnly t := by
  cases hp : s.master.mph with
  | txPoll => exact setMaster_masterOnly (f := fun m => { m with mph := .rxReply }) (txFollowUp_poll hp ▸ h)
  | txBcast => exact decisionSequence_masterOnly (txFollowUp_bcast hp ▸ h)
  | txAnnounce => exact decisionSequence_setMaster_masterOnly (txFollowUp_announce hp ▸ h)
  | txMarker =>
    rw [txFollowUp_marker hp] at h
    split_ifs at h
    · exact setMaster_masterOnly (f := id) h
    · exact decisionSequence_setMaster_masterOnly h
  | _ =>
    rw [txFollowUp_other (by simp [hp, MPhase.fmode])] at h
    exact Host.Outcome.next.inj h ▸ .rfl

theorem masterTxTick_masterOnly (h : masterTxTick s = .next t) : s.MasterOnly t := by
  have framer : s.MasterOnly (s.setMasterFramer s.master.fr.txTick.1) := .setMaster s _
  rw [masterTxTick_eq] at h
  split_ifs at h
  · exact framer.trans (txFollowUp_masterOnly h)
  · exact Host.Outcome.next.inj h ▸ framer

theorem masterRxTick_masterOnly (h : masterRxTick lv s = .next t) : s.MasterOnly t := by
  have framer : s.MasterOnly (s.setMasterFramer (s.master.fr.rxTick s.params.threshold lv).1) :=
    .setMaster s _
  rw [masterRxTick_eq] at h
  split_ifs at h
  · obtain ⟨s', hs', h⟩ := andThen_eq_next.1 h
    obtain ⟨r, m, e, rfl, -⟩ := completeReply_eq_next hs'
    exact framer.trans (.trans ⟨_, _, _, rfl⟩ (decisionSequence_masterOnly h))
  · exact Host.Outcome.next.inj h ▸ framer

/-- The master's own tick, phase by phase (42_master.md R161). -/
theorem masterTick_masterOnly (h : masterTick lv s = .next t) : s.MasterOnly t := by
  unfold masterTick at h
  cases hp : s.master.mph with
  | idle =>
    simp only [hp] at h
    exact decisionSequence_setMaster_masterOnly h
  | invFirst | invB =>
    simp only [hp] at h
    exact Host.Outcome.next.inj h ▸ .setMaster s _
  | invA =>
    simp only [hp] at h
    exact invATick_masterOnly h
  | gapAssign | gapMarker =>
    simp only [hp] at h
    exact setMaster_masterOnly (f := id) h
  | rxReply =>
    simp only [hp] at h
    exact masterRxTick_masterOnly h
  | txPoll | txBcast | txAnnounce | txMarker =>
    simp only [hp] at h
    exact masterTxTick_masterOnly h

theorem hostStep_slaves (h : hostStep inp s = .next t) : t.slaves = s.slaves := by
  obtain ⟨b, c, a, o, rfl⟩ := hostStep_eq_next h
  rfl

/-- The master's part of a tick writes no register of a slave, in reset or not (20_memory.md R75). -/
theorem masterStep_slaves (h : masterStep lv inp s = .next t) : t.slaves = s.slaves := by
  unfold masterStep at h
  split_ifs at h
  · obtain ⟨s', hs', h⟩ := andThen_eq_next.1 h
    obtain rfl := Host.Outcome.next.inj h
    exact hostStep_slaves (s := s.resetMasterAgent) (t := s') hs'
  · obtain ⟨s', hs', h⟩ := andThen_eq_next.1 h
    exact (masterTick_masterOnly h).slaves.trans (hostStep_slaves hs')

@[simp] theorem scanStep_slaves (b : Bool) (inp : TickInput) (s : State) :
    (scanStep b inp s).slaves = s.slaves := by
  unfold scanStep
  split_ifs <;> rfl

end MasterFrame

section OwnStep
variable {s t : State} {lv : Bool} {inp : TickInput} {k j : Nat} {v : Slave}

/-- One receive tick of a slave alone: what it does on the completing one is `OnPacket` with the rule of
the decoded packet (43_slave.md R213). -/
def Slave.ownRxTick (lv : Bool) (v : Slave) : Res Slave :=
  let r := v.fr.rxTick none lv
  let w := r.1.rxVal
  if r.2 then onPacket (uidOf w) (cmdOf w) (argOf w) (cksOf w) (ruleOf (decodeWord w)) { v with fr := r.1 }
  else .next { v with fr := r.1 }

/-- One tick of a slave alone, by its phase (43_slave.md R210). -/
def Slave.ownTick (lv : Bool) (v : Slave) : Res Slave :=
  match v.sph with
  | .listen => .next (listenTick lv v)
  | .presRel => presRelTick v
  | .rx => v.ownRxTick lv
  | .tx => slaveTxTick v

/-- A slave's part of a tick as a function of its registers, the level `lv` of the line and its reset
input `rst`; `slaveStep_eq_ownStep` ties it to the tick of the system. -/
def Slave.ownStep (lv rst : Bool) (v : Slave) : Res Slave :=
  if rst then .next (Slave.reset v.cfg) else v.ownTick lv

/-- The receive tick of a slave in the system is its own, written back. -/
theorem slaveRxTick_eq_ownRxTick (hk : s.slaves[k]? = some v) (h : slaveRxTick lv k v s = .next t) :
    ∃ v' r, v.ownRxTick lv = .next v' ∧ t = (s.setSlave k v').setReceiver r := by
  unfold slaveRxTick at h
  cases hr : (v.fr.rxTick none lv).2 with
  | false =>
    simp only [hr] at h
    exact ⟨_, s.receiver, if_neg (by simp [hr]), (Host.Outcome.next.inj h).symm⟩
  | true =>
    obtain ⟨hlt, -⟩ := List.getElem?_eq_some_iff.1 hk
    simp only [hr, if_true, exec_decodeWord] at h
    rw [receive_slave (v := { v with fr := (v.fr.rxTick none lv).1 }) rfl (by simp [hlt])] at h
    obtain ⟨v', hv', h⟩ := andThen_eq_next.1 h
    obtain rfl := Host.Outcome.next.inj h
    exact ⟨v', .slave k, (if_pos hr).trans hv', by simp [State.setSlave, State.setReceiver]⟩

/-- The tick of a slave in the system is its own, written back (20_memory.md R73). -/
theorem slaveTick_eq_ownTick (hk : s.slaves[k]? = some v) (h : slaveTick lv k v s = .next t) :
    ∃ v' r, v.ownTick lv = .next v' ∧ t = (s.setSlave k v').setReceiver r := by
  unfold slaveTick at h
  unfold Slave.ownTick
  cases hp : v.sph with
  | listen =>
    simp only [hp] at h
    exact ⟨_, s.receiver, rfl, (Host.Outcome.next.inj h).symm⟩
  | presRel | tx =>
    simp only [hp] at h
    obtain ⟨v', hv', h⟩ := andThen_eq_next.1 h
    exact ⟨v', s.receiver, hv', (Host.Outcome.next.inj h).symm⟩
  | rx =>
    simp only [hp] at h
    exact slaveRxTick_eq_ownRxTick hk h

theorem slaveStep_eq_ownStep (hk : s.slaves[k]? = some v) (h : slaveStep lv inp k s = .next t) :
    ∃ v', v.ownStep lv (inp.resetSlaves.contains k) = .next v' ∧ t.slaves[k]? = some v' := by
  obtain ⟨hlt, -⟩ := List.getElem?_eq_some_iff.1 hk
  have written (v' : Slave) : (s.slaves.set k v')[k]? = some v' := List.getElem?_set_self hlt
  simp only [slaveStep, hk] at h
  unfold Slave.ownStep
  split_ifs at h ⊢ with hr
  · obtain rfl := Host.Outcome.next.inj h
    exact ⟨_, rfl, written _⟩
  · obtain ⟨v', r, hv', rfl⟩ := slaveTick_eq_ownTick hk h
    exact ⟨v', hv', written v'⟩

/-- A slave's part of a tick writes no other slave. -/
theorem slaveStep_slaves_other (hj : k ≠ j) (h : slaveStep lv inp k s = .next t) :
    t.slaves[j]? = s.slaves[j]? := by
  rcases slaveStep_eq_next h with rfl | ⟨v, v', r, -, rfl, -⟩
  · rfl
  · exact List.getElem?_set_ne hj

theorem slaveSteps_slaves_other {ks : List Nat} (hj : j ∉ ks) (h : slaveSteps lv inp ks s = .next t) :
    t.slaves[j]? = s.slaves[j]? := by
  induction ks generalizing s with
  | nil => exact Host.Outcome.next.inj h ▸ rfl
  | cons k ks ih =>
    obtain ⟨hk, hks⟩ := not_or.1 (mt List.mem_cons.2 hj)
    obtain ⟨s', hs', h⟩ := andThen_eq_next.1 h
    exact (ih hks h).trans (slaveStep_slaves_other (Ne.symm hk) hs')

end OwnStep

section Cuts
variable {s s1 t : State} {k : Nat} {v : Slave}

/-- A tick is the master's part and then the rest. -/
theorem step_eq_afterMaster (h : s.params.refusal = none) :
    step s = andThen (masterStep s.dataLevel s.nextInput (s.setHostOut none)) s.afterMaster := by
  simp only [step, tick, h]
  rfl

/-- The slaves' part of a tick is the slaves below `k`, slave `k`, and the slaves above it. -/
theorem slaveSteps_range {n : Nat} (lv : Bool) (inp : TickInput) (hk : k < n) (s : State) :
    slaveSteps lv inp (List.range n) s =
      andThen (slaveSteps lv inp (List.range k) s) fun s' =>
        andThen (slaveStep lv inp k s') (slaveSteps lv inp (List.range' (k + 1) (n - (k + 1)))) := by
  have cut : List.range n = List.range k ++ k :: List.range' (k + 1) (n - (k + 1)) := by
    rw [List.range_eq_range', List.range_eq_range', ← List.range'_succ]
    have whole := List.range'_append_1 (s := 0) (m := k) (n := n - (k + 1) + 1)
    rw [Nat.zero_add, show k + (n - (k + 1) + 1) = n by omega] at whole
    exact whole.symm
  rw [cut, slaveSteps_append]
  rfl

/-- A tick is the part before slave `k` moves, its step, and the part after it (20_memory.md R75). -/
theorem step_eq_afterSlave (h : s.params.refusal = none) (hk : k < s.slaves.length) :
    step s = andThen (s.beforeSlave k) fun s1 =>
      andThen (slaveStep s.dataLevel s.nextInput k s1) (s.afterSlave k) := by
  rw [step_eq_afterMaster h, State.beforeSlave, andThen_assoc]
  congr 1
  funext s1
  rw [State.afterMaster, slaveSteps_range _ _ hk, andThen_assoc]
  congr 1
  funext s2
  exact andThen_assoc ..

theorem beforeSlave_slave (h : s.beforeSlave k = .next s1) : s1.slaves[k]? = s.slaves[k]? := by
  obtain ⟨s', hs', h⟩ := andThen_eq_next.1 h
  rw [slaveSteps_slaves_other List.not_mem_range_self h, masterStep_slaves hs']
  rfl

theorem afterSlave_slave (h : s.afterSlave k s1 = .next t) : t.slaves[k]? = s1.slaves[k]? := by
  obtain ⟨s', hs', h⟩ := andThen_eq_next.1 h
  obtain rfl := Host.Outcome.next.inj h
  rw [endTick_slaves, scanStep_slaves]
  exact slaveSteps_slaves_other (by simp) hs'

/-- A slave after a step is what its own step makes of it (20_memory.md R73). -/
theorem step_slave (h : step s = .next t) (hk : s.slaves[k]? = some v) :
    ∃ v', v.ownStep s.dataLevel (s.nextInput.resetSlaves.contains k) = .next v' ∧
      t.slaves[k]? = some v' := by
  obtain ⟨hlt, -⟩ := List.getElem?_eq_some_iff.1 hk
  obtain ⟨hp, -⟩ := tick_eq_next h
  rw [step_eq_afterSlave hp hlt] at h
  obtain ⟨s1, h1, h⟩ := andThen_eq_next.1 h
  obtain ⟨s2, h2, h3⟩ := andThen_eq_next.1 h
  rw [afterSlave_slave h3]
  exact slaveStep_eq_ownStep ((beforeSlave_slave h1).trans hk) h2

/-- A step adds no slave. -/
theorem step_slave_none (h : step s = .next t) (hk : s.slaves[k]? = none) : t.slaves[k]? = none := by
  have hlen : k ∉ List.range s.slaves.length := by simpa using hk
  obtain ⟨-, s1, s2, h1, h2, rfl⟩ := tick_eq_next h
  rw [endTick_slaves, scanStep_slaves, slaveSteps_slaves_other hlen h2, masterStep_slaves h1]
  exact hk

/-- Settles O57: what a slave becomes is `Slave.ownStep` of the three things the two states agree on. -/
theorem slaveSeesOnlyTheLine : Obligations.SlaveSeesOnlyTheLine := by
  intro s s' t t' k h h' hk hline hreset
  cases hv : s.slaves[k]? with
  | none => rw [step_slave_none h hv, step_slave_none h' (hk ▸ hv)]
  | some v =>
    obtain ⟨u, hu, ht⟩ := step_slave h hv
    obtain ⟨u', hu', ht'⟩ := step_slave h' (hk ▸ hv)
    rw [hline, hreset, hu'] at hu
    rw [ht, ht', Host.Outcome.next.inj hu]

end Cuts

end Sys2Proof.Machine
end

section
/-!
PROOF. Where in a tick an instruction is executed (20_memory.md R75): a host command before the master's
own tick, a packet in the slave that completes it, a reply in the master that completes it; and what the
master leaves alone between a poll and its reply (20_memory.md R78).
-/

namespace Sys2Proof.Machine

section Executing
variable {s : State} {lv : Bool} {inp : TickInput} {k : Nat} {v : Slave} {w : Word}

/-- On the completing tick of a receive a slave out of reset executes the packet (43_slave.md R213). -/
theorem slaveStep_lastTick (hk : s.slaves[k]? = some v) (hr : inp.resetSlaves.contains k = false)
    (hp : v.sph = .rx) (hw : v.fr.lastTickOf w) :
    slaveStep lv inp k s =
      exec (decodeWord w) ((s.setSlave k { v with fr := v.fr.received w }).setReceiver (.slave k)) := by
  simp only [slaveStep, hk, hr, Bool.false_eq_true, if_false, slaveTick, hp, slaveRxTick,
    Framer.rxTick_lastTick none lv hw, if_true]
  rfl

theorem masterTick_txPoll (hp : s.master.mph = .txPoll) : masterTick lv s = masterTxTick s := by
  simp only [masterTick, hp]

theorem masterTick_rxReply (hp : s.master.mph = .rxReply) : masterTick lv s = masterRxTick lv s := by
  simp only [masterTick, hp]

/-- On the completing tick of a reply the master executes it, dispatches and decides
(42_master.md R172, R185). -/
theorem masterTick_lastTick (hp : s.master.mph = .rxReply) (hw : s.master.fr.lastTickOf w) :
    masterTick lv s =
      andThen (exec (decodeWord w)
        ((s.setMaster { s.master with fr := s.master.fr.received w }).setReceiver .master))
        decisionSequence := by
  rw [masterTick_rxReply hp, masterRxTick_eq, Framer.rxTick_lastTick _ lv hw, if_pos rfl]
  rfl

/-- Out of reset the master's part of a tick is the host command and then its own tick
(45_dispatcher.md R282). -/
theorem masterStep_running (hr : inp.resetMaster = false) :
    masterStep lv inp s = andThen (hostStep inp s) (masterTick lv) := by
  simp [masterStep, hr]

theorem hostStep_none (h : inp.host = []) : hostStep inp s = .next s := by
  simp only [hostStep, h]

theorem hostStep_one {c : HostCmd} (h : inp.host = [c]) : hostStep inp s = exec c.instr s := by
  simp only [hostStep, h]

/-- Settles O50: the tick is cut at slave `k`, whose part is the execution of the packet. -/
theorem stepRunsPacket : Obligations.StepRunsPacket := by
  intro s s₁ k v w i hp hk hsph hw hr hbefore hi
  obtain rfl : decodeWord w = i := Except.ok.inj ((decode_fields w).symm.trans hi)
  obtain ⟨hlt, -⟩ := List.getElem?_eq_some_iff.1 hk
  have hk₁ : s₁.slaves[k]? = some v := (beforeSlave_slave hbefore).trans hk
  rw [step_eq_afterSlave hp hlt, hbefore, andThen_next, slaveStep_lastTick hk₁ hr hsph hw]

/-- Settles O51: the master's part of the tick is the execution of the reply, then its decision. -/
theorem stepRunsReply : Obligations.StepRunsReply := by
  intro s w i hp hr hhost hph hw hi
  obtain rfl : decodeWord w = i := Except.ok.inj ((decode_fields w).symm.trans hi)
  rw [step_eq_afterMaster hp, masterStep_running hr, hostStep_none hhost, andThen_next,
    masterTick_lastTick (s := s.setHostOut none) hph hw, andThen_assoc]
  congr 1
  funext s₁
  simp only [decisionSequence, andThen_assoc, andThen_next]

/-- Settles O52: the master's part of the tick is the execution of the command, then its own tick. -/
theorem stepRunsHostCommand : Obligations.StepRunsHostCommand := by
  intro s c i hp hr hhost hi
  have hci : c.instr = i := by
    rw [hi]
    cases c with
    | light on => cases on <;> rfl
    | _ => rfl
  rw [step_eq_afterMaster hp, masterStep_running hr, hostStep_one hhost, hci, andThen_assoc]

end Executing

section Polling
variable {s t : State} {m m' : Master} {lv : Bool} {inp : TickInput}

/-- `m'` has the table and the cursor of `m` (20_memory.md R78). -/
def Master.SamePoll (m m' : Master) : Prop := m'.tab = m.tab ∧ m'.cursor = m.cursor

theorem decideInvite_mph (m : Master) : (decideInvite m).mph ≠ .rxReply := by
  unfold decideInvite
  cases lowestFree m.tab <;> simp

theorem decidePolling_mph (h : decidePolling m = .next m') : m'.mph ≠ .rxReply := by
  obtain ⟨-, ⟨-, rfl⟩ | ⟨-, -, rfl⟩ | ⟨-, -, e, -, rfl⟩⟩ := decidePolling_eq_next h
  · simp
  · simp
  · simp

/-- A decision chooses the next phase, and none that it chooses awaits a reply: a poll is sent first
(42_master.md R170 to R178). -/
theorem masterDecide_mph (h : masterDecide m = .next m') : m'.mph ≠ .rxReply := by
  cases hst : m.mstate with
  | acceptingConnections =>
    rw [masterDecide_accepting hst] at h
    split_ifs at h
    · exact Host.Outcome.next.inj h ▸ decideInvite_mph m
    · simp [← Host.Outcome.next.inj h]
    · exact decidePolling_mph h
    · simp [← Host.Outcome.next.inj h]
  | polling =>
    rw [masterDecide_polling hst] at h
    split_ifs at h
    · exact Host.Outcome.next.inj h ▸ decideInvite_mph _
    · simp [← Host.Outcome.next.inj h]
    · simp [← Host.Outcome.next.inj h]
    · exact decidePolling_mph h
  | awaitingHandshakeReply => simp [masterDecide_awaiting hst] at h

theorem decisionSequence_mph (h : decisionSequence s = .next t) : t.master.mph ≠ .rxReply := by
  obtain ⟨s', m, -, hm, rfl⟩ := decisionSequence_eq_next h
  exact masterDecide_mph hm

/-- A tick of a poll frame: the frame goes on, or the receive of the reply is armed
(42_master.md R172). -/
theorem masterTxTick_samePoll (hp : s.master.mph = .txPoll) (h : masterTxTick s = .next t) :
    s.master.SamePoll t.master := by
  rw [masterTxTick_eq] at h
  split_ifs at h
  · rw [txFollowUp_poll (s := s.setMasterFramer s.master.fr.txTick.1) hp] at h
    obtain ⟨m, hm, h⟩ := andThen_eq_next.1 h
    obtain ⟨-, rfl⟩ := Master.armRx_eq_next.1 hm
    exact Host.Outcome.next.inj h ▸ ⟨rfl, rfl⟩
  · exact Host.Outcome.next.inj h ▸ ⟨rfl, rfl⟩

/-- A tick of a reply after which the master still awaits it is one of the receive alone: the completing
tick ends with a decision (42_master.md R172). -/
theorem masterRxTick_samePoll (h : masterRxTick lv s = .next t) (ht : t.master.mph = .rxReply) :
    s.master.SamePoll t.master := by
  rw [masterRxTick_eq] at h
  split_ifs at h
  · obtain ⟨s', -, h⟩ := andThen_eq_next.1 h
    exact absurd ht (decisionSequence_mph h)
  · exact Host.Outcome.next.inj h ▸ ⟨rfl, rfl⟩

theorem masterTick_samePoll (h : masterTick lv s = .next t)
    (hp : s.master.mph = .txPoll ∨ s.master.mph = .rxReply ∧ t.master.mph = .rxReply) :
    s.master.SamePoll t.master := by
  rcases hp with hp | ⟨hp, ht⟩
  · exact masterTxTick_samePoll hp (masterTick_txPoll hp ▸ h)
  · exact masterRxTick_samePoll (masterTick_rxReply hp ▸ h) ht

/-- Settles O55: of the parts of a tick only the master's own writes the table or the cursor, and not
between a poll and its reply. -/
theorem tableStableDuringPoll : Obligations.TableStableDuringPoll := by
  intro s t h hreset hp
  obtain ⟨-, s1, s2, h1, h2, rfl⟩ := tick_eq_next h
  rw [endTick_master, scanStep_master, slaveSteps_master h2] at hp ⊢
  rw [masterStep_running hreset] at h1
  obtain ⟨s0, h0, h1⟩ := andThen_eq_next.1 h1
  obtain ⟨b, c, a, o, rfl⟩ := hostStep_eq_next h0
  have stays := masterTick_samePoll h1 hp
  exact stays

end Polling

end Sys2Proof.Machine
end

section
/-!
PROOF. Decoding undoes encoding. A packet goes through its word, where reading and writing are inverse to
each other (30_encoding.md R91, R100, R102); a host command through its characters (R107, log 8).
-/

namespace Sys2Proof

/-- The bytes of a packet instruction are decoded as its word (30_encoding.md R99). -/
theorem decode_encode_eq_decodeWord {i : Instr} (hs : i.source = .line) :
    decode .line (encode i) = .ok (decodeWord i.word) := by
  cases i with
  | hostLight1 | hostLight0 | hostMotor | hostBitmap | hostEnable | hostCancel | hostLastFault => cases hs
  | _ => rfl

theorem decode_encode_packet {i : Instr} (hs : i.source = .line) (hwf : i.wf = true) :
    decode .line (encode i) = .ok i :=
  calc decode .line (encode i)
      = .ok (decodeWord i.word) := decode_encode_eq_decodeWord hs
    _ = .ok i := congrArg Except.ok (decodeWord_word hs hwf)

/-- A word is read as the well-formed packet instruction whose word it is. -/
theorem decodeWord_eq_of_word {i : Instr} {w : Word} (hs : i.source = .line) (hwf : i.wf = true)
    (hw : i.word = w) : decodeWord w = i :=
  hw ▸ decodeWord_word hs hwf

/-- Each of the sixteen hex digits is read back from its character (log 8). -/
@[simp] theorem hexValue_hexChar (d : BitVec 4) : hexValue (hexChar d) = some d := by
  revert d
  decide

/-- A byte is its high hex digit followed by its low one. -/
theorem highDigit_append_lowDigit (b : Byte) : b.extractLsb' 4 4 ++ b.extractLsb' 0 4 = b :=
  calc b.extractLsb' 4 4 ++ b.extractLsb' 0 4
      = b.extractLsb' 0 8 := BitVec.extractLsb'_append_extractLsb'_eq_extractLsb' rfl
    _ = b := BitVec.extractLsb'_eq_self

/-- The arguments of `m`, written as three hex digits, are read as the direction and the speed they spell
(45_dispatcher.md R281). -/
theorem decodeMotor_hexChars (dir hi lo : BitVec 4) :
    decodeMotor [hexChar dir, hexChar hi, hexChar lo] = .ok (.hostMotor dir (hi ++ lo)) := by
  simp only [decodeMotor, hexValue_hexChar]

theorem decode_encode_hostMotor (dir : BitVec 4) (speed : Byte) :
    decode .host (encode (.hostMotor dir speed)) = .ok (.hostMotor dir speed) :=
  calc decode .host (encode (.hostMotor dir speed))
      = decodeMotor [hexChar dir, hexChar (speed.extractLsb' 4 4), hexChar (speed.extractLsb' 0 4)] := rfl
    _ = .ok (.hostMotor dir (speed.extractLsb' 4 4 ++ speed.extractLsb' 0 4)) := decodeMotor_hexChars ..
    _ = .ok (.hostMotor dir speed) := by rw [highDigit_append_lowDigit]

theorem decode_encode_host {i : Instr} (hs : i.source = .host) : decode .host (encode i) = .ok i := by
  cases i with
  | hostMotor dir speed => exact decode_encode_hostMotor dir speed
  | hostLight1 | hostLight0 | hostBitmap | hostEnable | hostCancel | hostLastFault => rfl
  | _ => cases hs

/-- Settles O1, source by source. -/
theorem decodeOfEncode : Obligations.DecodeOfEncode := by
  intro i hwf
  cases hs : i.source with
  | line => exact decode_encode_packet hs hwf
  | host => exact decode_encode_host hs

/-- Settles O3: each word is the one its instruction encodes to, and the motor command's text is read
character by character. -/
theorem specWordsDecode : Obligations.SpecWordsDecode :=
  ⟨decodeWord_eq_of_word rfl rfl rfl, decodeWord_eq_of_word rfl rfl rfl, decodeWord_eq_of_word rfl rfl rfl,
    decodeWord_eq_of_word rfl rfl rfl, decodeWord_eq_of_word rfl rfl rfl, decodeWord_eq_of_word rfl rfl rfl,
    decodeWord_eq_of_word rfl rfl rfl, decodeWord_eq_of_word rfl rfl rfl, decode_encode_hostMotor 1 0x40⟩

end Sys2Proof
end

section
/-!
PROOF. The transmitting framer (40_framer.md R120 to R123): what arming writes, and where a transmit stands
`n` ticks after it was armed, before and at its completing tick.
-/

namespace Sys2Proof.Machine

/-- Settles O8: an arming is the closed form of the armed framer, or the refusal. -/
theorem armingAFramer : Obligations.ArmingAFramer := fun _ w =>
  ⟨fun h => ⟨Framer.armTx_idle w h, Framer.armRx_idle h⟩,
    fun h => ⟨Framer.armTx_busy w h, Framer.armRx_busy h⟩⟩

section Transmit
variable {f : Framer} {w : Word} {n : Nat}

/-- The ones of a frame: the first half of the start pair, and the data ticks of the word's ones
(40_framer.md R122). -/
theorem txLevel_eq_true_iff {k : Nat} :
    txLevel w k = true ↔ k = 0 ∨ ∃ i, i < 32 ∧ w.getLsbD i = true ∧ k = 2 + 2 * i := by
  unfold txLevel Config.packetBits
  split_ifs with h0 h1 hle he
  · simp [h0]
  · simp only [false_iff]; omega
  · obtain ⟨j, rfl⟩ : ∃ j, k = 2 + 2 * j := ⟨(k - 2) / 2, by omega⟩
    have hj : j < 32 := by omega
    simp [hj]
  · simp only [false_iff]; omega
  · simp only [false_iff]; omega

/-- Tick `2 + 2i` of a frame carries bit `i` (40_framer.md R122). -/
theorem txLevel_data {i : Nat} (hi : i < 32) : txLevel w (2 + 2 * i) = w.getLsbD i := by
  rw [Bool.eq_iff_iff, txLevel_eq_true_iff]
  constructor
  · rintro (h | ⟨j, -, hj, h⟩)
    · omega
    · obtain rfl : i = j := by omega
      exact hj
  · exact fun h => .inr ⟨i, hi, h, rfl⟩

theorem Framer.afterTxTicks_succ : f.afterTxTicks (n + 1) = (f.afterTxTicks n).txTick.1 :=
  Function.iterate_succ_apply' ..

/-- A transmit inside its frame: one tick per level. -/
theorem Framer.afterTxTicks_sending (hn : n < 66) :
    (f.sending w).afterTxTicks (n + 1) = { f.sending w with txPos := n + 1, drv := txLevel w n } := by
  induction n with
  | zero => rw [afterTxTicks_succ]; exact congrArg Prod.fst (txTick_running rfl (Nat.zero_lt_succ 65))
  | succ n ih =>
    rw [afterTxTicks_succ, ih (by omega)]
    exact congrArg Prod.fst (txTick_running rfl hn)

/-- The 67th tick completes the transmit on an undriven line. -/
theorem Framer.afterTxTicks_sending_complete :
    (f.sending w).afterTxTicks 67 =
      { f.sending w with txPos := 66, drv := false, fmode := .idle, fdone := true, fstatus := .ok } := by
  rw [afterTxTicks_succ, afterTxTicks_sending (by decide)]
  exact congrArg Prod.fst (txTick_last rfl (Nat.lt_irrefl 66))

/-- The transmit runs before its 67th tick. -/
theorem Framer.afterTxTicks_sending_running (hn : n < 67) :
    ((f.sending w).afterTxTicks n).fmode = .tx ∧ ((f.sending w).afterTxTicks n).fdone = false := by
  cases n with
  | zero => exact ⟨rfl, rfl⟩
  | succ n => rw [afterTxTicks_sending (by omega)]; exact ⟨rfl, rfl⟩

/-- The drive after each tick of a frame is the level of that tick, on the completing one too. -/
theorem Framer.afterTxTicks_sending_drv (hn : n ≤ 66) :
    ((f.sending w).afterTxTicks (n + 1)).drv = txLevel w n := by
  rcases Nat.lt_or_eq_of_le hn with hlt | rfl
  · rw [afterTxTicks_sending hlt]
  · rw [afterTxTicks_sending_complete, eq_comm, Bool.eq_false_iff, ne_eq, txLevel_eq_true_iff]
    omega

/-- Settles O9: the drive is the level of the tick, and the closed forms give the length. -/
theorem transmitWaveform : Obligations.TransmitWaveform := by
  intro f w n h1 h67
  refine ⟨?_, Framer.afterTxTicks_sending_running, ?_⟩
  · obtain ⟨k, rfl⟩ : ∃ k, n = k + 1 := ⟨n - 1, by omega⟩
    have shift (i : Nat) : k + 1 = 3 + 2 * i ↔ k = 2 + 2 * i := by omega
    simp only [Framer.afterTxTicks_sending_drv (show k ≤ 66 by omega), txLevel_eq_true_iff, shift,
      Nat.add_eq_right]
  · rintro rfl
    rw [Framer.afterTxTicks_sending_complete]
    exact ⟨rfl, rfl, rfl⟩

end Transmit

end Sys2Proof.Machine
end

section
/-!
PROOF. The receiving framer (40_framer.md R131 to R138): what one tick can do, what a run of ticks keeps,
the count of failed detections up to the threshold, and the bits of the data field.
-/

namespace Sys2Proof.Machine

/-- The word `v` after the data tick `p` with sample `b` (40_framer.md R133). -/
def takenBit (p : Nat) (b : Bool) (v : Word) : Word :=
  if p % 2 = 0 then v ||| ((BitVec.ofBool b).setWidth 32 <<< (p / 2)) else v

/-- The word `v` after the data ticks from `p` on with the samples of a list. -/
def takenBits (p : Nat) : List Bool → Word → Word
  | [], v => v
  | b :: bs, v => takenBits (p + 1) bs (takenBit p b v)

/-- The sample `b` fails a start-bit detection of `f` (40_framer.md R131). -/
def Framer.FailsOn (b : Bool) (f : Framer) : Prop :=
  f.rxSub = .seekHi ∧ b = false ∨ f.rxSub = .seekLo ∧ b = true

section ReceiveTick
variable {f : Framer} {th : Option Nat} {b : Bool} {n : Nat}

/-- A failed detection away from the threshold is only counted. -/
theorem Framer.failedDetection_counts (h : ∀ n, th = some n → f.fails + 1 < n) :
    f.failedDetection th = ({ f with fails := f.fails + 1 }, false) := by
  cases th with
  | none => rfl
  | some n => exact if_neg (Nat.not_le.2 (h n rfl))

theorem Framer.failedDetection_aborts (h : n ≤ f.fails + 1) :
    f.failedDetection (some n) = (f.aborted, true) := if_pos h

theorem Framer.rxTick_fails (hm : f.fmode = .rx) (h : f.FailsOn b) :
    f.rxTick th b = f.failedDetection th := by
  rcases h with ⟨hs, rfl⟩ | ⟨hs, rfl⟩
  · exact rxTick_seekHi_idle th hm hs
  · exact rxTick_seekLo_active th hm hs

theorem Framer.dataTick_running (h : f.rxPos ≠ 63) :
    f.dataTick b =
      ({ f with rxVal := takenBit f.rxPos b f.rxVal, rxPos := f.rxPos + 1 }, false) := if_neg h

theorem Framer.dataTick_last (h : f.rxPos = 63) :
    f.dataTick b = (f.received (takenBit f.rxPos b f.rxVal), true) := if_pos h

/-- Everything a receive tick can do (40_framer.md R131 to R133). -/
theorem Framer.rxTick_cases (th : Option Nat) (b : Bool) (f : Framer) :
    (f.rxTick th b).1 = f ∨
    f.rxSub = .seekHi ∧ (f.rxTick th b).1 = { f with rxSub := .seekLo } ∨
    f.rxSub = .seekLo ∧ (f.rxTick th b).1 = { f with rxSub := .data, rxPos := 0 } ∨
    f.rxSub ≠ .data ∧ (f.rxTick th b).1 = { f with fails := f.fails + 1 } ∨
    f.rxSub ≠ .data ∧ th ≠ none ∧ (f.rxTick th b).1 = f.aborted ∨
    f.rxSub = .data ∧ (f.rxTick th b).1 =
      { f with rxVal := takenBit f.rxPos b f.rxVal, rxPos := f.rxPos + 1 } ∨
    f.rxSub = .data ∧ (f.rxTick th b).1 = f.received (takenBit f.rxPos b f.rxVal) := by
  by_cases hm : f.fmode = .rx
  · by_cases hf : f.FailsOn b
    · have seeks : f.rxSub ≠ .data := by rcases hf with ⟨hs, -⟩ | ⟨hs, -⟩ <;> simp [hs]
      rw [rxTick_fails hm hf]
      by_cases hc : ∀ n, th = some n → f.fails + 1 < n
      · simp [failedDetection_counts hc, seeks]
      · push Not at hc
        obtain ⟨n, rfl, hn⟩ := hc
        simp [failedDetection_aborts hn, seeks]
    · cases hs : f.rxSub with
      | seekHi =>
        obtain rfl : b = true := by simpa [FailsOn, hs] using hf
        simp [rxTick_seekHi_active th hm hs]
      | seekLo =>
        obtain rfl : b = false := by simpa [FailsOn, hs] using hf
        simp [rxTick_seekLo_idle th hm hs]
      | data =>
        rw [rxTick_data th b hm hs]
        by_cases hp : f.rxPos = 63
        · simp [dataTick_last hp]
        · simp [dataTick_running hp, hs]
  · simp [rxTick_other th b hm]

/-- SYNC comes of a failed detection under a threshold only (40_framer.md R132). -/
theorem Framer.rxTick_ok (h : th = none ∨ f.rxSub = .data) (hok : f.fstatus = .ok) :
    (f.rxTick th b).1.fstatus = .ok := by
  rcases f.rxTick_cases th b with e | ⟨-, e⟩ | ⟨-, e⟩ | ⟨-, e⟩ | ⟨hs, hth, -⟩ | ⟨-, e⟩ | ⟨-, e⟩
  case inr.inr.inr.inr.inl => exact (h.elim hth hs).elim
  all_goals simp [e, hok]

/-- A receiver leaves its data field by completing only (40_framer.md R133). -/
theorem Framer.rxTick_rxSub_data (hs : f.rxSub = .data) : (f.rxTick th b).1.rxSub = .data := by
  rcases f.rxTick_cases th b with e | ⟨hn, -⟩ | ⟨hn, -⟩ | ⟨hn, -⟩ | ⟨hn, -⟩ | ⟨-, e⟩ | ⟨-, e⟩
  case inl | inr.inr.inr.inr.inr.inl | inr.inr.inr.inr.inr.inr => simp [e, hs]
  all_goals simp [hs] at hn

/-- A receiver does not drive the line. -/
@[simp] theorem Framer.rxTick_drv : (f.rxTick th b).1.drv = f.drv := by
  rcases f.rxTick_cases th b with h | ⟨-, h⟩ | ⟨-, h⟩ | ⟨-, h⟩ | ⟨-, -, h⟩ | ⟨-, h⟩ | ⟨-, h⟩ <;>
    rw [h] <;> rfl

end ReceiveTick

section ReceiveRun
variable {f : Framer} {th : Option Nat} {bs : List Bool}

theorem rxRun_cons {g : Framer} {b c : Bool} (h : f.rxTick th b = (g, c)) :
    rxRun th (b :: bs) f = rxRun th bs g := by
  rw [rxRun, h]

theorem rxRun_append (as bs : List Bool) (f : Framer) :
    rxRun th (as ++ bs) f = rxRun th bs (rxRun th as f) := by
  induction as generalizing f with
  | nil => rfl
  | cons a as ih => exact ih _

/-- What every receive tick keeps, every run of them keeps. -/
theorem rxRun_keeps {P : Framer → Prop} (step : ∀ f b, P f → P (f.rxTick th b).1)
    (bs : List Bool) (h : P f) : P (rxRun th bs f) := by
  induction bs generalizing f with
  | nil => exact h
  | cons b bs ih => exact ih (step f b h)

theorem rxRun_drv : (rxRun th bs f).drv = f.drv :=
  rxRun_keeps (P := fun g => g.drv = f.drv) (fun _ _ h => Framer.rxTick_drv.trans h) bs rfl

/-- A framer that is not receiving ignores the line. -/
theorem rxRun_other (hm : f.fmode ≠ .rx) : rxRun th bs f = f :=
  rxRun_keeps (P := fun g => g = f)
    (fun _ b h => by rw [h, Framer.rxTick_other th b hm]) bs rfl

/-- A receive that still runs has run all along. -/
theorem rxRun_take_rx (k : Nat) (h : (rxRun th bs f).fmode = .rx) :
    (rxRun th (bs.take k) f).fmode = .rx := by
  by_contra hk
  rw [← List.take_append_drop k bs, rxRun_append, rxRun_other hk] at h
  exact hk h

end ReceiveRun

section Threshold

/-- Settles O10. Only a failed detection under a threshold gives SYNC, and a receiver in its data field
makes none. -/
theorem faultThreshold : Obligations.FaultThreshold := by
  refine ⟨fun f n b hm hf => ?_, fun f bs => ?_, fun f th bs _ hs hok => ?_⟩
  · rw [Framer.rxTick_fails hm hf]
    split_ifs with hn
    · rw [Framer.failedDetection_aborts hn]
    · rw [Framer.failedDetection_counts fun m hm => by cases hm; omega]
  · exact rxRun_keeps (P := fun g => g.fstatus = .ok) (fun _ _ => Framer.rxTick_ok (.inl rfl)) bs rfl
  · have keeps (g : Framer) (b : Bool) (hg : g.rxSub = .data ∧ g.fstatus = .ok) :
        (g.rxTick th b).1.rxSub = .data ∧ (g.rxTick th b).1.fstatus = .ok :=
      ⟨Framer.rxTick_rxSub_data hg.1, Framer.rxTick_ok (.inr hg.1) hg.2⟩
    exact (rxRun_keeps (P := fun g => g.rxSub = .data ∧ g.fstatus = .ok) keeps bs ⟨hs, hok⟩).2

variable {f : Framer} {n : Nat} {b : Bool}

/-- Failed detections below the threshold are counted, one per tick (40_framer.md R131). -/
theorem rxRun_replicate_fails (hm : f.fmode = .rx) (hf : f.FailsOn b) (k : Nat) (hk : f.fails + k < n) :
    rxRun (some n) (List.replicate k b) f = { f with fails := f.fails + k } := by
  induction k generalizing f with
  | zero => rfl
  | succ k ih =>
    have counts : f.rxTick (some n) b = ({ f with fails := f.fails + 1 }, false) :=
      (Framer.rxTick_fails hm hf).trans
        (Framer.failedDetection_counts fun m hm => by cases hm; omega)
    calc rxRun (some n) (List.replicate (k + 1) b) f
        = rxRun (some n) (List.replicate k b) { f with fails := f.fails + 1 } := rxRun_cons counts
      _ = { f with fails := f.fails + 1 + k } := ih hm hf (by show f.fails + 1 + k < n; omega)
      _ = { f with fails := f.fails + (k + 1) } := by rw [Nat.add_assoc, Nat.add_comm 1]

/-- A receiver with no failed detection yet, on a line that fails it for ever, is aborted by the last of
`n` ticks (40_framer.md R132). -/
theorem rxRun_replicate_aborts (hm : f.fmode = .rx) (hf : f.FailsOn b) (h0 : f.fails = 0) (hn : 1 ≤ n) :
    rxRun (some n) (List.replicate n b) f = ({ f with fails := n - 1 } : Framer).aborted := by
  obtain ⟨k, rfl⟩ : ∃ k, n = k + 1 := ⟨n - 1, by omega⟩
  have counted := rxRun_replicate_fails hm hf k (n := k + 1) (by omega)
  rw [List.replicate_succ', rxRun_append, counted, h0, Nat.zero_add, Nat.add_sub_cancel]
  have fails : ({ f with fails := k } : Framer).rxTick (some (k + 1)) b =
      (({ f with fails := k } : Framer).aborted, true) :=
    (Framer.rxTick_fails (f := { f with fails := k }) hm hf).trans
      (Framer.failedDetection_aborts (Nat.le_refl (k + 1)))
  rw [rxRun_cons fails, rxRun]

/-- Settles O13: a silent line fails the seek for the first half of a start pair from the first tick on, an
active one the seek for the second half from the second tick on. -/
theorem receiveTimeout : Obligations.ReceiveTimeout := by
  intro f n hn
  have silent : f.seeking.FailsOn false := .inl ⟨rfl, rfl⟩
  have active : ({ f.seeking with rxSub := .seekLo } : Framer).FailsOn true := .inr ⟨rfl, rfl⟩
  have activeTick (k : Nat) : rxRun (some n) (List.replicate (k + 1) true) f.seeking =
      rxRun (some n) (List.replicate k true) { f.seeking with rxSub := .seekLo } :=
    rxRun_cons (Framer.rxTick_seekHi_active _ rfl rfl)
  rw [rxRun_replicate_aborts rfl silent rfl hn, activeTick, rxRun_replicate_aborts rfl active rfl hn]
  refine ⟨fun k hk => ?_, rfl, rfl, rfl, fun k hk => ?_, rfl, rfl, rfl⟩
  · rw [rxRun_replicate_fails rfl silent k (by simpa using hk)]
    rfl
  · cases k with
    | zero => rfl
    | succ k =>
      rw [activeTick, rxRun_replicate_fails rfl active k (by simpa using hk)]
      rfl

end Threshold

section DataField
variable {f : Framer} {th : Option Nat} {bs : List Bool} {p i : Nat} {b : Bool} {v : Word}

/-- An even data tick `2i` adds its sample as bit `i`, and no tick touches another bit. -/
theorem getLsbD_takenBit (hi : i < 32) :
    (takenBit p b v).getLsbD i = (v.getLsbD i || (decide (p = 2 * i) && b)) := by
  unfold takenBit
  split_ifs with he
  · by_cases hp : p = 2 * i
    · subst hp
      cases b <;> simp [hi]
    · have hpi : p / 2 ≠ i := by omega
      rcases Nat.lt_or_gt_of_ne hpi with hlt | hgt
      · have : i - p / 2 ≠ 0 := by omega
        cases b <;> simp [hp, this, BitVec.getLsbD_one]
      · simp [hp, hgt]
  · have hp : p ≠ 2 * i := by omega
    simp [hp]

/-- Bit `i` is the sample of tick `2i`, if that is among the ticks taken. -/
theorem getLsbD_takenBits (hi : i < 32) :
    (takenBits p bs v).getLsbD i =
      (v.getLsbD i || (decide (p ≤ 2 * i) && bs.getD (2 * i - p) false)) := by
  induction bs generalizing p v with
  | nil => simp [takenBits]
  | cons b bs ih =>
    rw [takenBits, ih, getLsbD_takenBit hi]
    rcases Nat.lt_trichotomy p (2 * i) with hlt | rfl | hgt
    · have hsub : 2 * i - p = 2 * i - (p + 1) + 1 := by omega
      simp [hlt.ne, hlt.le, Nat.succ_le_of_lt hlt, hsub]
    · simp
    · simp [hgt.ne', Nat.not_le.2 hgt, Nat.not_le.2 (Nat.lt_succ_of_lt hgt)]

/-- A receiver inside its data field. -/
theorem rxRun_data_running (hm : f.fmode = .rx) (hs : f.rxSub = .data) (hlen : f.rxPos + bs.length < 64) :
    rxRun th bs f =
      { f with rxPos := f.rxPos + bs.length, rxVal := takenBits f.rxPos bs f.rxVal } := by
  induction bs generalizing f with
  | nil => rfl
  | cons b bs ih =>
    rw [List.length_cons] at hlen ⊢
    calc rxRun th (b :: bs) f
        = rxRun th bs { f with rxVal := takenBit f.rxPos b f.rxVal, rxPos := f.rxPos + 1 } :=
          rxRun_cons ((Framer.rxTick_data th b hm hs).trans (Framer.dataTick_running (by omega)))
      _ = { f with rxPos := f.rxPos + 1 + bs.length,
                   rxVal := takenBits (f.rxPos + 1) bs (takenBit f.rxPos b f.rxVal) } :=
          ih hm hs (by show f.rxPos + 1 + bs.length < 64; omega)
      _ = { f with rxPos := f.rxPos + (bs.length + 1), rxVal := takenBits f.rxPos (b :: bs) f.rxVal } := by
          rw [Nat.add_assoc, Nat.add_comm 1, takenBits]

/-- The data field is complete with the sample of tick 63. -/
theorem rxRun_data_complete (hm : f.fmode = .rx) (hs : f.rxSub = .data) (hp : f.rxPos < 64)
    (hlen : f.rxPos + bs.length = 64) :
    rxRun th bs f = ({ f with rxPos := 63 } : Framer).received (takenBits f.rxPos bs f.rxVal) := by
  induction bs generalizing f with
  | nil => exact absurd hlen hp.ne
  | cons b bs ih =>
    rw [List.length_cons] at hlen
    have tick := Framer.rxTick_data th b hm hs
    by_cases h63 : f.rxPos = 63
    · obtain rfl : bs = [] := List.eq_nil_of_length_eq_zero (by omega)
      rw [rxRun_cons (tick.trans (Framer.dataTick_last h63)), rxRun, takenBits, takenBits, ← h63]
    · rw [rxRun_cons (tick.trans (Framer.dataTick_running h63))]
      exact ih hm hs (by show f.rxPos + 1 < 64; omega) (by show f.rxPos + 1 + bs.length = 64; omega)

/-- Settles O11: the data field starts empty, so the bits taken are its whole word. -/
theorem dataBitsAreTheEvenSamples : Obligations.DataBitsAreTheEvenSamples := by
  intro f th bs hm hs hp hv hd hlen
  rw [rxRun_data_complete hm hs (by omega) (by omega)]
  refine ⟨fun i hi => ?_, rfl, rfl, rfl, fun n hn => ?_⟩
  · show (takenBits f.rxPos bs f.rxVal).getLsbD i = _
    simp [getLsbD_takenBits hi, hp, hv]
  · rw [rxRun_data_running hm hs (by rw [List.length_take]; omega)]
    exact ⟨hm, hd⟩

end DataField

end Sys2Proof.Machine
end

section
/-!
PROOF. A transmitter and a receiver alone on a line (40_framer.md R135 to R137). The receiver drives
nothing, so its samples are the transmitter's levels: one silent tick, the start pair, and 64 ticks of data
whose even ones are the bits of the word.
-/

namespace Sys2Proof.Machine

/-- The levels a transmitter holds on the line over `n` ticks, as the other end samples them
(20_memory.md R62). -/
def Framer.levels (n : Nat) (f : Framer) : List Bool :=
  (List.range n).map fun k => (f.afterTxTicks k).drv

/-- The levels of the data field of a frame with the word `w` (40_framer.md R122). -/
def dataLevels (w : Word) : List Bool := (List.range 64).map fun j => txLevel w (2 + j)

section Link
variable {f g : Framer} {th : Option Nat} {w : Word}

/-- Both ends of the line, each on its own. -/
theorem linkRun_eq (hg : g.drv = false) (n : Nat) :
    linkRun th n (f, g) = (f.afterTxTicks n, rxRun th (f.levels n) g) := by
  induction n with
  | zero => rfl
  | succ n ih =>
    have hlv : f.levels (n + 1) = f.levels n ++ [(f.afterTxTicks n).drv] := by
      simp [Framer.levels, List.range_succ]
    rw [linkRun, Function.iterate_succ_apply', ← linkRun, ih, hlv, rxRun_append,
      Framer.afterTxTicks_succ]
    simp [linkTick, rxRun, rxRun_drv, hg]

/-- The levels of a frame: one tick before the first drive, the start pair, the data field. -/
theorem Framer.levels_sending (hf : f.drv = false) :
    (f.sending w).levels 67 = [false, true, false] ++ dataLevels w := by
  have frame : (List.range 66).map (fun k => ((f.sending w).afterTxTicks (k + 1)).drv) =
      (List.range (2 + 64)).map (txLevel w) :=
    List.map_congr_left fun k hk => afterTxTicks_sending_drv (List.mem_range.1 hk).le
  rw [List.range_add, List.map_append, List.map_map] at frame
  rw [levels, List.range_succ_eq_map, List.map_cons, List.map_map]
  exact congrArg₂ List.cons hf frame

theorem Framer.levels_take {k n : Nat} (hk : k ≤ n) : (f.levels n).take k = f.levels k := by
  rw [levels, ← List.map_take, List.take_range, Nat.min_eq_left hk, levels]

/-- A receiver that may fail once more comes through a silent tick and a start pair into its data field
(40_framer.md R131, R137). -/
theorem rxRun_startPair (hm : g.fmode = .rx) (hs : g.rxSub = .seekHi)
    (hth : ∀ n, th = some n → g.fails + 1 < n) :
    rxRun th [false, true, false] g = { g with fails := g.fails + 1, rxSub := .data, rxPos := 0 } := by
  rw [rxRun_cons ((Framer.rxTick_seekHi_idle th hm hs).trans (Framer.failedDetection_counts hth)),
    rxRun_cons (Framer.rxTick_seekHi_active th (f := { g with fails := g.fails + 1 }) hm hs),
    rxRun_cons (Framer.rxTick_seekLo_idle th
      (f := { g with fails := g.fails + 1, rxSub := .seekLo }) hm rfl), rxRun]

/-- Settles O12: behind the start pair the receiver is synchronised, and its even samples are the bits
sent. -/
theorem frameRoundTrip : Obligations.FrameRoundTrip := by
  intro w th f g hf hg hm hs hv hd _ hth
  have synced (bs : List Bool) := rxRun_append (th := th) [false, true, false] bs g
  simp only [rxRun_startPair hm hs hth] at synced
  obtain ⟨bits, idle, done, ok, before⟩ :=
    dataBitsAreTheEvenSamples { g with fails := g.fails + 1, rxSub := .data, rxPos := 0 } th
      (dataLevels w) hm rfl rfl hv hd (by simp [dataLevels])
  have word : ∀ i < 32, (dataLevels w).getD (2 * i) false = w.getLsbD i := fun i hi => by
    simp [dataLevels, show 2 * i < 64 by omega, txLevel_data hi]
  constructor
  · rw [linkRun_eq hg, Framer.afterTxTicks_sending_complete, Framer.levels_sending hf, synced]
    exact ⟨rfl, rfl, idle, done, ok,
      BitVec.eq_of_getLsbD_eq fun i hi => (bits i hi).trans (word i hi)⟩
  · intro k hk
    rw [linkRun_eq hg]
    refine ⟨(Framer.afterTxTicks_sending_running hk).1, ?_⟩
    rw [← Framer.levels_take (show k ≤ 66 by omega)]
    refine rxRun_take_rx k ?_
    have last : (f.sending w).levels 66 = [false, true, false] ++ (dataLevels w).take 63 := by
      rw [← Framer.levels_take (show 66 ≤ 67 by decide), Framer.levels_sending hf]
      rfl
    rw [last, synced]
    exact (before 63 (by decide)).1

end Link

end Sys2Proof.Machine
end

section
/-!
PROOF. The transmit ticks of a slave (40_framer.md R122, 43_slave.md R213).
-/

namespace Sys2Proof.Machine

section ReplySent
variable {s : State} {lv : Bool} {k : Nat} {v : Slave}

theorem slaveTick_tx (hp : v.sph = .tx) :
    slaveTick lv k v s = andThen (slaveTxTick v) fun v => .next (s.setSlave k v) := by
  simp only [slaveTick, hp]

theorem slaveTxTick_running (hm : v.fr.fmode = .tx) (hk : v.fr.txPos < 66) :
    slaveTxTick v = .next
      { v with fr := { v.fr with drv := txLevel v.fr.txWord v.fr.txPos, txPos := v.fr.txPos + 1 } } := by
  rw [slaveTxTick, Framer.txTick_running hm hk]
  rfl

/-- The completing tick: the framer is idle, so the receiver can be armed. -/
theorem slaveTxTick_last (hm : v.fr.fmode = .tx) (hk : v.fr.txPos = 66) :
    slaveTxTick v = .next
      ({ v with sstate := v.afterTx.target v.sstate, afterTx := .none,
                fr := { v.fr with drv := false } } : Slave).listening := by
  rw [slaveTxTick, Framer.txTick_last hm (by omega)]
  exact Slave.rearm_idle rfl

/-- Settles O23: the transmit tick of the slave, put back into the state. -/
theorem slaveReplySent : Obligations.SlaveReplySent := by
  intro s k v lv hp hm
  rw [slaveTick_tx hp]
  refine ⟨fun hk => ?_, fun hk => ?_⟩
  · rw [slaveTxTick_running hm hk, andThen_next]
  · rw [slaveTxTick_last hm hk, andThen_next]
    rfl

end ReplySent

end Sys2Proof.Machine
end

section
/-!
PROOF. The packet checksum (41_checksum.md R150 to R154). A word is valid exactly when the exclusive or of
its four bytes is 0xFF, and that exclusive or is linear: a corruption changes it by the exclusive or of the
four bytes of the error pattern. So what the check detects is read off the error pattern alone.
-/

namespace Sys2Proof

/-- The places of the four bytes of a word, as shifts (30_encoding.md R91). -/
theorem wordOf_eq_shifts (uid cmd arg c : Byte) :
    wordOf uid cmd arg c =
      c.setWidth 32 <<< 24 ||| arg.setWidth 32 <<< 16 ||| cmd.setWidth 32 <<< 8 ||| uid.setWidth 32 :=
  calc wordOf uid cmd arg c
      = (c ++ arg ++ cmd ++ uid).setWidth 32 := (BitVec.setWidth_eq _).symm
    _ = _ := BitVec.setWidth_append_append_append_eq_shiftLeft_setWidth_or

/-- The exclusive or of the four bytes of a word (41_checksum.md R151). -/
def xorBytes (w : Word) : Byte := uidOf w ^^^ cmdOf w ^^^ argOf w ^^^ cksOf w

section Linear
variable (w e : Word)

theorem uidOf_xor : uidOf (w ^^^ e) = uidOf w ^^^ uidOf e := BitVec.extractLsb'_xor

theorem cmdOf_xor : cmdOf (w ^^^ e) = cmdOf w ^^^ cmdOf e := BitVec.extractLsb'_xor

theorem argOf_xor : argOf (w ^^^ e) = argOf w ^^^ argOf e := BitVec.extractLsb'_xor

theorem cksOf_xor : cksOf (w ^^^ e) = cksOf w ^^^ cksOf e := BitVec.extractLsb'_xor

theorem xorBytes_xor : xorBytes (w ^^^ e) = xorBytes w ^^^ xorBytes e := by
  simp only [xorBytes, uidOf_xor, cmdOf_xor, argOf_xor, cksOf_xor]
  ac_rfl

end Linear

/-- A flipped bit changes the exclusive or in exactly its own place in its byte (41_checksum.md R153). -/
theorem xorBytes_bit : ∀ i < 32, xorBytes (1#32 <<< i) = 1#8 <<< (i % 8) := by decide

theorem xorBytes_bit_ne_zero {i : Nat} (hi : i < 32) : xorBytes (1#32 <<< i) ≠ 0 := by
  have place : ∀ k < 8, 1#8 <<< k ≠ 0 := by decide
  rw [xorBytes_bit i hi]
  exact place (i % 8) (Nat.mod_lt i (by decide))

end Sys2Proof

namespace Sys2Proof.Machine

section Checksum
variable {w e : Word}

theorem wordValid_iff_cks : wordValid w = true ↔ cksOf w = cks (uidOf w) (cmdOf w) (argOf w) :=
  decide_eq_true_iff

/-- The two forms of R151: a byte and its complement differ in every bit. -/
theorem wordValid_iff_xorBytes : wordValid w = true ↔ xorBytes w = 0xFF := by
  have ones (x : Byte) : x ^^^ ~~~x = 0xFF := by rw [← BitVec.not_xor_right, BitVec.xor_self]; rfl
  rw [wordValid_iff_cks, xorBytes, cks, ← ones (uidOf w ^^^ cmdOf w ^^^ argOf w), BitVec.xor_right_inj]

/-- A corruption of a valid word is seen in the exclusive or of its own bytes alone. -/
theorem wordValid_xor_iff (hw : wordValid w = true) : wordValid (w ^^^ e) = true ↔ xorBytes e = 0 := by
  have base : xorBytes w = 0xFF := wordValid_iff_xorBytes.1 hw
  calc wordValid (w ^^^ e) = true
      ↔ 0xFF ^^^ xorBytes e = 0xFF ^^^ 0 := by
        rw [wordValid_iff_xorBytes, xorBytes_xor, base, LawfulXor.xor_zero]
    _ ↔ xorBytes e = 0 := BitVec.xor_right_inj _

end Checksum

/-- Settles O5: the check as the model makes it, and the exclusive or of the four bytes. -/
theorem validExactlyWhenXorIsOnes : Obligations.ValidExactlyWhenXorIsOnes :=
  fun _ => ⟨wordValid_iff_cks, wordValid_iff_xorBytes⟩

/-- Settles O7: the criterion on the error pattern. -/
theorem undetectedCorruptions : Obligations.UndetectedCorruptions :=
  fun _ _ hw => wordValid_xor_iff hw

/-- Settles O6: the error pattern of one bit has an exclusive or that is not 0. -/
theorem singleBitCorruptionDetected : Obligations.SingleBitCorruptionDetected := by
  intro w i hi hw
  rw [← Bool.not_eq_true, wordValid_xor_iff hw]
  exact xorBytes_bit_ne_zero hi

/-- Settles O4: a packed word is its four fields put at their places. -/
theorem packLayout : Obligations.PackLayout := fun _ _ _ =>
  ⟨rfl, uidOf_wordOf .., cmdOf_wordOf .., argOf_wordOf .., cksOf_wordOf .., wordOf_eq_shifts ..⟩

end Sys2Proof.Machine
end

section
/-!
PROOF. The master's reply handling (42_master.md R185 to R194). A packet instruction executed by the master
is `HandleReply` on the fields of its word; for a valid reply of the polled id that is the rule of the
entry's stage, accepted or faulted.
-/

namespace Sys2Proof.Machine

section ReplyExecution
variable {s : State} {e e' : Entry} {i : Instr} {data endm : Byte} {code : FaultCode}

/-- A packet instruction with the master as the receiver is `HandleReply` of its word (log 5). -/
theorem exec_reply (hr : s.receiver = .master) (hs : i.source = .line) (hwf : i.wf = true) :
    exec i s = andThen
      (handleReply (uidOf i.word) (cmdOf i.word) (argOf i.word) (cksOf i.word) s.master)
      fun m => .next (s.setMaster m) :=
  calc exec i s
      = exec (decodeWord i.word) s := by rw [decodeWord_word hs hwf]
    _ = _ := (exec_decodeWord i.word s).trans (receive_master hr)

/-- Settles O27: the two checks of `HandleReply` before the stage is looked at. -/
theorem replyValidation : Obligations.ReplyValidation := by
  intro s e i ⟨hr, he⟩ hs hwf
  rw [exec_reply hr hs hwf]
  refine ⟨fun hinvalid => ?_, fun hvalid huid => ?_⟩
  · rw [handleReply_invalid he hinvalid, andThen_next]
  · rw [handleReply_foreign he hvalid huid, andThen_next]

/-- The checksum of a packed word matches its fields (41_checksum.md R150). -/
theorem fieldsValid_cks (uid cmd arg : Byte) : fieldsValid uid cmd arg (cks uid cmd arg) = true :=
  decide_eq_true rfl

/-- A valid reply of the polled id is `HandleReply` of the fields it was packed from. -/
theorem exec_packedReply (hr : s.receiver = .master) (hi : isPacket i s.master.cursor data endm) :
    exec i s = andThen
      (handleReply s.master.cursor data endm (cks s.master.cursor data endm) s.master)
      fun m => .next (s.setMaster m) := by
  obtain ⟨hs, hwf, hw⟩ := hi
  rw [exec_reply hr hs hwf, hw, pack, uidOf_wordOf, cmdOf_wordOf, argOf_wordOf, cksOf_wordOf]

theorem exec_reply_accepted (h : s.hasReply e) (hi : isPacket i s.master.cursor data endm)
    (hstage : stageRule data e = .ok e') :
    exec i s = .next (s.setMaster (s.master.accepted e' endm)) := by
  obtain ⟨hr, he⟩ := h
  rw [exec_packedReply hr hi, handleReply_accepted he (fieldsValid_cks ..) hstage, andThen_next]

theorem exec_reply_faulted (h : s.hasReply e) (hi : isPacket i s.master.cursor data endm)
    (hstage : stageRule data e = .error code) :
    exec i s = .next (s.setMaster (s.master.faulted code)) := by
  obtain ⟨hr, he⟩ := h
  rw [exec_packedReply hr hi, handleReply_fault he (fieldsValid_cks ..) hstage, andThen_next]

end ReplyExecution

section StageRules
variable {e : Entry} (data : Byte)

theorem stageRule_expectType (h : e.stage = .expectType) : stageRule data e = expectType data e := by
  simp only [stageRule, h]

theorem stageRule_identityByte0 (h : e.stage = .expectIdentityByte0) :
    stageRule data e = expectIdentity 0 .expectIdentityByte1 opUidByte2 data e := by
  simp only [stageRule, h]

theorem stageRule_identityByte1 (h : e.stage = .expectIdentityByte1) :
    stageRule data e = expectIdentity 1 .expectIdentityByte2 opUidByte3 data e := by
  simp only [stageRule, h]

theorem stageRule_identityByte2 (h : e.stage = .expectIdentityByte2) :
    stageRule data e = expectLastIdentity data e := by
  simp only [stageRule, h]

theorem stageRule_expectAck (h : e.stage = .expectAck) : stageRule data e = expectAck data e := by
  simp only [stageRule, h]

theorem stageRule_expectAny (h : e.stage = .expectAny) : stageRule data e = expectAny data e := by
  simp only [stageRule, h]

end StageRules

section Stages

/-- Settles O28: the data byte is one of the two types, or a fault. -/
theorem replyInExpectType : Obligations.ReplyInExpectType := by
  intro s e i data endm h hi hstage
  have rule := stageRule_expectType data hstage
  split_ifs with htrain hstation
  · exact exec_reply_accepted h hi (rule.trans (if_pos htrain))
  · exact exec_reply_accepted h hi (rule.trans ((if_neg htrain).trans (if_pos hstation)))
  · exact exec_reply_faulted h hi (rule.trans ((if_neg htrain).trans (if_neg hstation)))

/-- Settles O29: each stage stores its byte, whatever it is. -/
theorem replyInIdentityStages : Obligations.ReplyInIdentityStages := by
  intro s e i data endm h hi
  refine ⟨fun h0 => ?_, fun h1 => ?_, fun h2 => ?_⟩
  · exact exec_reply_accepted h hi (stageRule_identityByte0 data h0)
  · exact exec_reply_accepted h hi (stageRule_identityByte1 data h1)
  · exact exec_reply_accepted h hi (stageRule_identityByte2 data h2)

/-- Settles O30: `OK` or a fault. -/
theorem replyInExpectAck : Obligations.ReplyInExpectAck := by
  intro s e i data endm h hi hstage
  have rule := stageRule_expectAck data hstage
  split_ifs with hok
  · exact exec_reply_accepted h hi (rule.trans (if_pos hok))
  · exact exec_reply_faulted h hi (rule.trans (if_neg hok))

/-- Settles O31: `DISCONNECT` is the one fault. -/
theorem replyInExpectAny : Obligations.ReplyInExpectAny := by
  intro s e i data endm h hi hstage
  have rule := stageRule_expectAny data hstage
  split_ifs with hdisconnect
  · exact exec_reply_faulted h hi (rule.trans (if_pos hdisconnect))
  · exact exec_reply_accepted h hi (rule.trans (if_neg hdisconnect))

/-- Settles O33: a receive without a word is the SYNC fault on the polled entry. -/
theorem silentReplyFaults : Obligations.SilentReplyFaults := by
  intro s e he hsync
  simp only [completeReply, hsync, handleSilence]
  rw [raiseFault_of_entry .sync he, andThen_next]

end Stages

section AfterReply
variable {t : List Entry} {c : Byte} {m : Master} {e e' : Entry} {endm : Byte}

/-- The order of `next_conn(c)` ends with `c` itself (10_state.md R48), so from a connected id there is a
next one. -/
theorem nextConn_isSome_of_connected (h : connectedAt t c = true) : ∃ i, nextConn t c = some i := by
  obtain ⟨h1, h254⟩ : 1 ≤ c.toNat ∧ c.toNat ≤ 254 := of_decide_eq_true (assignable_of_connectedAt h)
  have last : cyclicId c 253 = c := BitVec.eq_of_toNat_eq (by rw [cyclicId_toNat]; omega)
  rw [← Option.isSome_iff_exists, nextConn, List.find?_isSome]
  exact ⟨c, List.mem_map.2 ⟨253, List.mem_range.2 (by decide), last⟩, h⟩

/-- The entry of an accepted reply is connected in the new table. -/
theorem accepted_connected (he : tabEntry m.tab m.cursor = some e) (hk : e'.kind ≠ .disconnected) :
    connectedAt (m.accepted e' endm).tab m.cursor = true :=
  (connectedAt_setTabEntry_same he).trans (Entry.connected_iff.2 hk)

/-- Settles O32: after an accepted reply the table is not empty and the polled id has a successor. -/
theorem afterAReply : Obligations.AfterAReply := by
  intro m e endm code he
  refine ⟨fun e' hk => ?_, rfl⟩
  have hcon := accepted_connected (endm := endm) he hk
  refine ⟨fun hend => ?_, fun hend => if_neg hend, if_neg (connectedCount_pos hcon).ne'⟩
  obtain ⟨i, hi⟩ := nextConn_isSome_of_connected hcon
  have moved : (m.accepted e' endm).cursor = (nextConn (m.accepted e' endm).tab m.cursor).getD m.cursor :=
    if_pos hend
  rw [moved, hi, Option.getD_some]

end AfterReply

end Sys2Proof.Machine
end

section
/-!
PROOF. The master's decisions (42_master.md R170 to R179) and the phases outside the receive of a reply
(R172, R180 to R184).
-/

namespace Sys2Proof.Machine

section Decision
variable {m : Master}

theorem decideInvite_full (h : lowestFree m.tab = none) :
    decideInvite m = { m with session := true, capFault := true, mph := .idle } := by
  simp only [decideInvite, h]

theorem decideInvite_free (h : lowestFree m.tab ≠ none) :
    decideInvite m = { m with session := true, capFault := false, mph := .invFirst } := by
  obtain ⟨i, hi⟩ := Option.ne_none_iff_exists'.1 h
  simp only [decideInvite, hi]

/-- Settles O38, branch by branch of the decision. -/
theorem decideAccepting : Obligations.DecideAccepting := by
  intro m hst
  rw [masterDecide_accepting hst]
  refine ⟨fun he hfull => ?_, fun he hfree => ?_, fun he hs => ?_, fun he hs hc => ?_,
    fun he hs hc => ?_⟩
  · rw [if_pos he, decideInvite_full hfull]
  · rw [if_pos he, decideInvite_free hfree]
  · rw [if_neg (Bool.eq_false_iff.1 he), if_pos hs]
  · rw [if_neg (Bool.eq_false_iff.1 he), if_neg (Bool.eq_false_iff.1 hs), if_neg (by omega)]
  · rw [if_neg (Bool.eq_false_iff.1 he), if_neg (Bool.eq_false_iff.1 hs),
      if_pos (Nat.pos_of_ne_zero hc), masterDecide_polling rfl, if_neg hc]

/-- With an empty table the two states decide alike (42_master.md R173). -/
theorem masterDecide_polling_empty (hst : m.mstate = .polling) (hc : connectedCount m.tab = 0) :
    masterDecide m = masterDecide { m with mstate := .acceptingConnections } := by
  rw [masterDecide_polling hst, if_pos hc, masterDecide_accepting rfl,
    if_neg (c := 0 < connectedCount m.tab) (by omega)]

theorem decidePolling_bcast (hm : m.fr.fmode = .idle) (hb : m.bcValid = true) :
    decidePolling m = .next
      { m with fr := m.fr.sending (bcastWord m.bcCmd m.bcArg), bcValid := false, mph := .txBcast } := by
  rw [decidePolling, if_pos hb, Master.armTx_idle _ hm, andThen_next]

theorem decidePolling_announce (hm : m.fr.fmode = .idle) (hb : m.bcValid = false)
    (he : m.enumEn = true) :
    decidePolling m = .next { m with fr := m.fr.sending announceWord, mph := .txAnnounce } := by
  rw [decidePolling, if_neg (Bool.eq_false_iff.1 hb), if_pos he, Master.armTx_idle _ hm, andThen_next]

theorem decidePolling_poll (hb : m.bcValid = false) (he : m.enumEn = false) :
    decidePolling m = armPoll m := by
  rw [decidePolling, if_neg (Bool.eq_false_iff.1 hb), if_neg (Bool.eq_false_iff.1 he)]

/-- The cursor repair goes to the cursor's own id if connected, to the next connected one if not
(42_master.md R176). -/
theorem repairCursor_eq {c : Byte}
    (h : connectedAt m.tab m.cursor = true ∧ c = m.cursor ∨
      connectedAt m.tab m.cursor = false ∧ nextConn m.tab m.cursor = some c) :
    m.repairCursor = { m with cursor := c } := by
  rcases h with ⟨hcon, rfl⟩ | ⟨hdis, hnext⟩
  · simp only [Master.repairCursor, hcon, if_true]
  · simp only [Master.repairCursor, hdis, hnext, Bool.false_eq_true, if_false, Option.getD_some]

/-- The poll of the entry of id `c`, to which the repaired cursor points (42_master.md R177). -/
theorem armPoll_eq {c : Byte} {e : Entry} (hm : m.fr.fmode = .idle)
    (hc : m.repairCursor = { m with cursor := c }) (he : tabEntry m.tab c = some e) :
    armPoll m = .next { m with cursor := c, fr := m.fr.sending (pollWord c e), mph := .txPoll,
                               mstate := .awaitingHandshakeReply } := by
  simp only [armPoll, hc, he]
  rw [Master.armTx_idle (m := { m with cursor := c }) _ hm, andThen_next]

end Decision

section Phases
variable {s : State} {m : Master} {lv : Bool}

theorem masterTick_invFirst (h : s.master.mph = .invFirst) :
    masterTick lv s = .next (s.setMaster (invFirstTick s.master)) := by
  simp only [masterTick, h]

theorem masterTick_invB (h : s.master.mph = .invB) :
    masterTick lv s = .next (s.setMaster (invBTick s.master)) := by
  simp only [masterTick, h]

theorem masterTick_invA (h : s.master.mph = .invA) : masterTick lv s = invATick lv s := by
  simp only [masterTick, h]

theorem masterTick_gapAssign (h : s.master.mph = .gapAssign) :
    masterTick lv s = andThen (gapAssignTick s.master) fun m => .next (s.setMaster m) := by
  simp only [masterTick, h]

theorem masterTick_gapMarker (h : s.master.mph = .gapMarker) :
    masterTick lv s = andThen (gapMarkerTick s.master) fun m => .next (s.setMaster m) := by
  simp only [masterTick, h]

/-- Settles O34, phase by phase and, in `INV_A`, by the sample and `enum_en`. -/
theorem invitationTrain : Obligations.InvitationTrain := by
  intro s lv
  refine ⟨masterTick_invFirst, masterTick_invB, fun hp hlv => ?_, fun hp hlv he => ?_,
    fun hp hlv he => ?_⟩
  · rw [masterTick_invA hp, invATick, if_pos hlv]
    rfl
  · rw [masterTick_invA hp, invATick, if_neg (Bool.eq_false_iff.1 hlv), if_pos he]
    rfl
  · rw [masterTick_invA hp, invATick, if_neg (Bool.eq_false_iff.1 hlv),
      if_neg (by simp [he])]
    rfl

/-- The assignment of the lowest free id by a master at rest (42_master.md R183). -/
theorem assignId_eq {i : Byte} (hm : m.fr.fmode = .idle) (hi : lowestFree m.tab = some i) :
    assignId m = .next { m with
      tab := setTabEntry m.tab i Entry.assigned, cursor := i, fr := m.fr.sending (assignWord i),
      mph := .txPoll, mstate := .awaitingHandshakeReply } := by
  simp only [assignId, hi]
  rw [Master.armTx_idle (m := { m with tab := setTabEntry m.tab i Entry.assigned, cursor := i }) _ hm,
    andThen_next]

theorem armMarker_eq (hm : m.fr.fmode = .idle) :
    armMarker m = .next { m with fr := m.fr.sending announceWord, mph := .txMarker } := by
  rw [armMarker, Master.armTx_idle _ hm, andThen_next]

theorem countDown_gapCnt (m : Master) : m.countDown.gapCnt = m.gapCnt - 1 := rfl

/-- The last tick of a gap leaves the count at 0. -/
theorem countDown_last (h : m.gapCnt = 1) : m.countDown = { m.setDrv false with gapCnt := 0 } := by
  simp only [Master.countDown, h]

/-- Settles O35: the gap counts down, and its last tick assigns. -/
theorem idAssignment : Obligations.IdAssignment := by
  intro s lv i hp
  rw [masterTick_gapAssign hp, gapAssignTick_eq, countDown_gapCnt]
  refine ⟨fun hgap => ?_, fun hgap hm hi => ?_⟩
  · rw [if_neg (by omega)]
    rfl
  · rw [if_pos (by omega), countDown_last hgap,
      assignId_eq (m := { s.master.setDrv false with gapCnt := 0 }) hm hi]
    rfl

/-- Settles O36: the gap counts down, and its last tick starts a marker. -/
theorem markerGap : Obligations.MarkerGap := by
  intro s lv hp
  rw [masterTick_gapMarker hp, gapMarkerTick_eq, countDown_gapCnt]
  refine ⟨fun hgap => ?_, fun hgap hm => ?_⟩
  · rw [if_neg (by omega)]
    rfl
  · rw [if_pos (by omega), countDown_last hgap,
      armMarker_eq (m := { s.master.setDrv false with gapCnt := 0 }) hm]
    rfl

/-- Settles O37, phase by phase; the phase of the markers stays until the third. -/
theorem transmitFollowUps : Obligations.TransmitFollowUps := by
  intro s hm
  refine ⟨fun hp => ?_, txFollowUp_bcast, txFollowUp_announce, fun hp hk => ?_, fun hp hk => ?_⟩
  · rw [txFollowUp_poll hp, Master.armRx_idle hm, andThen_next]
  · rw [txFollowUp_marker hp, if_pos hk,
      armMarker_eq (m := { s.master with mkCnt := s.master.mkCnt + 1 }) hm, andThen_next, ← hp]
    rfl
  · rw [txFollowUp_marker hp, if_neg (by omega)]
    rfl

end Phases

end Sys2Proof.Machine

namespace Sys2Proof.Laws

open Sys2Proof.Machine

/-- Settles O39, branch by branch of the decision. `Machine.decidePolling` is the model's function. -/
theorem decidePolling : Obligations.DecidePolling := by
  intro m hst
  refine ⟨masterDecide_polling_empty hst, fun hc hm => ?_⟩
  rw [masterDecide_polling hst, if_neg hc]
  refine ⟨decidePolling_bcast hm, decidePolling_announce hm, fun c e hb he hcur hentry => ?_⟩
  rw [decidePolling_poll hb he]
  exact armPoll_eq hm (repairCursor_eq hcur) hentry

end Sys2Proof.Laws
end

section
/-!
PROOF. The cursor goes round robin (42_master.md R193, R196). An advance passes exactly one connected id, so
it takes as many advances to reach a connected id as there are connected ids up to it in cyclic order
(`connectedAfter`), and over a whole round that is every one of them.
-/

namespace Sys2Proof.Machine

section RoundRobin
variable {t : List Entry} {c i : Byte} {k : Nat}

theorem cursorAfter_succ (t : List Entry) (n : Nat) (c : Byte) :
    cursorAfter t (n + 1) c = cursorAfter t n ((nextConn t c).getD c) :=
  Function.iterate_succ_apply _ n c

theorem cursorAfter_succ' (t : List Entry) (n : Nat) (c : Byte) :
    cursorAfter t (n + 1) c = (nextConn t (cursorAfter t n c)).getD (cursorAfter t n c) :=
  Function.iterate_succ_apply' _ n c

/-- Where anything is connected, an advance ends on a connected id. -/
theorem connectedAt_advanced (hl : t.length = 254) (hc : connectedCount t ≠ 0) (c : Byte) :
    connectedAt t ((nextConn t c).getD c) = true := by
  obtain ⟨i, hi⟩ := nextConn_isSome (c := c) hl hc
  rw [hi]
  exact connectedAt_of_nextConn hi

/-- How many of the `k` ids after `c` in cyclic order are connected. -/
def connectedAfter (t : List Entry) (c : Byte) (k : Nat) : Nat :=
  Nat.count (fun l => connectedAt t (cyclicId c l) = true) k

/-- Going on from the id `k` places on. -/
theorem cyclicId_cyclicId (c : Byte) (k l : Nat) : cyclicId (cyclicId c k) l = cyclicId c (k + 1 + l) :=
  BitVec.eq_of_toNat_eq (by simp only [cyclicId_toNat]; omega)

theorem connectedAfter_add (t : List Entry) (c : Byte) (k n : Nat) :
    connectedAfter t c (k + 1 + n) = connectedAfter t c (k + 1) + connectedAfter t (cyclicId c k) n := by
  simp only [connectedAfter, Nat.count_add, cyclicId_cyclicId]

/-- In the order that begins with id 1, `connected_count` counts a round. -/
theorem connectedAfter_zero_round (hl : t.length = 254) : connectedAfter t 0 254 = connectedCount t := by
  have ids (j : Nat) (hj : j ∈ List.range 254) : cyclicId 0 j = BitVec.ofNat 8 (j + 1) := by
    simp [cyclicId, Config.maxId, Nat.mod_eq_of_lt (List.mem_range.1 hj)]
  calc connectedAfter t 0 254
      = (List.range 254).countP fun j => connectedAt t (cyclicId 0 j) := by
        simp [connectedAfter, Nat.count]
    _ = (List.range 254).countP fun j => connectedAt t (BitVec.ofNat 8 (j + 1)) :=
        List.countP_congr fun j hj => by rw [ids j hj]
    _ = connectedCount t := by rw [connectedCount_eq_filter hl, List.countP_eq_length_filter]

/-- A round meets every id once, wherever it starts: the ids up to `c` come first or last. -/
theorem connectedAfter_round (hl : t.length = 254) (h1 : 1 ≤ c.toNat) (h254 : c.toNat ≤ 254) :
    connectedAfter t c 254 = connectedCount t := by
  have here : cyclicId 0 (c.toNat - 1) = c :=
    BitVec.eq_of_toNat_eq (by rw [cyclicId_toNat]; change (0 + (c.toNat - 1)) % 254 + 1 = c.toNat; omega)
  have again (n : Nat) : connectedAfter t (cyclicId 0 253) n = connectedAfter t 0 n := by
    have wrap (l : Nat) : cyclicId (cyclicId 0 253) l = cyclicId 0 l :=
      BitVec.eq_of_toNat_eq (by simp only [cyclicId_toNat]; omega)
    simp only [connectedAfter, wrap]
  have first := connectedAfter_add t 0 (c.toNat - 1) 254
  have last : connectedAfter t 0 (254 + c.toNat) = _ := connectedAfter_add t 0 253 c.toNat
  rw [here, Nat.sub_add_cancel h1] at first
  rw [again, connectedAfter_zero_round hl, Nat.add_comm] at last
  omega

/-- The first connected id after `c` is one advance away, and the first that `connectedAfter` counts. -/
theorem nextConn_of_first (hk : k < 254) (hcon : connectedAt t (cyclicId c k) = true)
    (hbefore : ∀ l < k, ¬ connectedAt t (cyclicId c l) = true) :
    nextConn t c = some (cyclicId c k) ∧ connectedAfter t c (k + 1) = 1 := by
  constructor
  · exact nextConn_eq_some_iff.2
      ⟨hcon, k, hk, cyclicId_toNat c k, fun l hl => Bool.eq_false_iff.2 (hbefore l hl)⟩
  · rw [connectedAfter, Nat.count_succ, Nat.count_iff_forall_not.2 hbefore, if_pos hcon]

/-- A connected id is as many advances away as there are connected ids up to it. -/
theorem cursorAfter_connectedAfter (hk : k < 254) (hcon : connectedAt t (cyclicId c k) = true) :
    cursorAfter t (connectedAfter t c (k + 1)) c = cyclicId c k := by
  induction k using Nat.strong_induction_on generalizing c with
  | _ k ih =>
    have some_connected : ∃ l, connectedAt t (cyclicId c l) = true := ⟨k, hcon⟩
    obtain ⟨j, hj, hjcon, hbefore⟩ : ∃ j ≤ k, connectedAt t (cyclicId c j) = true ∧
        ∀ l < j, ¬ connectedAt t (cyclicId c l) = true :=
      ⟨Nat.find some_connected, Nat.find_min' _ hcon, Nat.find_spec some_connected,
        fun _ => Nat.find_min some_connected⟩
    obtain ⟨hnext, hone⟩ := nextConn_of_first (hj.trans_lt hk) hjcon hbefore
    rcases hj.eq_or_lt with rfl | hlt
    · rw [hone, cursorAfter_succ, hnext]
      rfl
    · obtain ⟨d, rfl⟩ := Nat.exists_eq_add_of_lt hlt
      have there : cyclicId (cyclicId c j) d = cyclicId c (j + d + 1) := by
        rw [cyclicId_cyclicId, Nat.add_right_comm]
      rw [show j + d + 1 + 1 = j + 1 + (d + 1) by omega, connectedAfter_add, hone, Nat.add_comm,
        cursorAfter_succ, hnext, Option.getD_some, ← there]
      exact ih d (by omega) (by omega) (there ▸ hcon)

/-- Every id is within one round of every id. -/
theorem cyclicId_surjective (hc : c.toNat ≤ 254) (hi : 1 ≤ i.toNat) (hi' : i.toNat ≤ 254) :
    ∃ k < 254, cyclicId c k = i :=
  ⟨(i.toNat + 253 - c.toNat) % 254, Nat.mod_lt _ (by decide),
    BitVec.eq_of_toNat_eq (by rw [cyclicId_toNat]; omega)⟩

/-- Settles O25: the advances to a connected id are counted by the connected ids on the way, which a round
bounds. -/
theorem roundRobin : Obligations.RoundRobin := by
  intro t c i hl h1 h254 hcon
  constructor
  · intro n hn
    obtain ⟨n, rfl⟩ := Nat.exists_eq_add_of_le' hn
    rw [cursorAfter_succ']
    exact connectedAt_advanced hl (connectedCount_pos hcon).ne' _
  · obtain ⟨hi, hi'⟩ : 1 ≤ i.toNat ∧ i.toNat ≤ 254 := of_decide_eq_true (assignable_of_connectedAt hcon)
    obtain ⟨k, hk, rfl⟩ := cyclicId_surjective h254 hi hi'
    refine ⟨connectedAfter t c (k + 1), ?_, ?_, cursorAfter_connectedAfter hk hcon⟩
    · exact Nat.pos_of_ne_zero (Nat.count_ne_iff_exists.2 ⟨k, Nat.lt_succ_self k, hcon⟩)
    · rw [← connectedAfter_round hl h1 h254]
      exact Nat.count_monotone _ hk

end RoundRobin

end Sys2Proof.Machine
end

section
/-!
PROOF. Which ids are connected (42_master.md R195). No part of the master's tick changes that, and none
writes `last_fault`, but two: the assignment at the end of the gap, and a reply that ends in a fault.
-/

namespace Sys2Proof.Machine

/-- `m'` has the connected ids and the `last_fault` of `m`. -/
def Master.SameDevices (m m' : Master) : Prop :=
  m'.tab.map Entry.connected = m.tab.map Entry.connected ∧ m'.lastFault = m.lastFault

section DevicesKept
variable {m m' : Master} {s t : State} {lv : Bool}

theorem Master.SameDevices.rfl : m.SameDevices m := ⟨Eq.refl _, Eq.refl _⟩

theorem Master.SameDevices.trans {m'' : Master} (h : m.SameDevices m') (h' : m'.SameDevices m'') :
    m.SameDevices m'' :=
  ⟨h'.1.trans h.1, h'.2.trans h.2⟩

theorem Master.SameDevices.connectedAt (h : m.SameDevices m') (i : Byte) :
    connectedAt m'.tab i = connectedAt m.tab i :=
  connectedAt_eq_of_map h.1 i

theorem decideInvite_devices (m : Master) : m.SameDevices (decideInvite m) := by
  unfold decideInvite
  cases lowestFree m.tab <;> exact .rfl

theorem decidePolling_devices (h : decidePolling m = .next m') : m.SameDevices m' := by
  obtain ⟨-, ⟨-, rfl⟩ | ⟨-, -, rfl⟩ | ⟨-, -, e, -, rfl⟩⟩ := decidePolling_eq_next h
  · exact .rfl
  · exact .rfl
  · exact .rfl

theorem masterDecide_devices (h : masterDecide m = .next m') : m.SameDevices m' := by
  cases hst : m.mstate with
  | acceptingConnections =>
    rw [masterDecide_accepting hst] at h
    split_ifs at h
    · exact Host.Outcome.next.inj h ▸ decideInvite_devices m
    · exact Host.Outcome.next.inj h ▸ .rfl
    · exact decidePolling_devices (m := { m with mstate := .polling }) h
    · exact Host.Outcome.next.inj h ▸ .rfl
  | polling =>
    rw [masterDecide_polling hst] at h
    split_ifs at h
    · exact Host.Outcome.next.inj h ▸ decideInvite_devices { m with mstate := .acceptingConnections }
    · exact Host.Outcome.next.inj h ▸ .rfl
    · exact Host.Outcome.next.inj h ▸ .rfl
    · exact decidePolling_devices h
  | awaitingHandshakeReply => simp [masterDecide_awaiting hst] at h

theorem dispatchMailbox_devices (h : dispatchMailbox s = .next t) : s.master.SameDevices t.master := by
  obtain ⟨b, tab, rfl, hmap, -⟩ := dispatchMailbox_effect h
  exact ⟨hmap, rfl⟩

theorem decisionSequence_devices (h : decisionSequence s = .next t) : s.master.SameDevices t.master := by
  obtain ⟨s', m, hs', hm, rfl⟩ := decisionSequence_eq_next h
  exact (dispatchMailbox_devices hs').trans (masterDecide_devices hm)

theorem gapMarkerTick_devices (h : gapMarkerTick m = .next m') : m.SameDevices m' := by
  rw [gapMarkerTick_eq] at h
  split_ifs at h
  · exact armMarker_eq_next h ▸ .rfl
  · exact Host.Outcome.next.inj h ▸ .rfl

theorem invATick_devices (h : invATick lv s = .next t) : s.master.SameDevices t.master := by
  unfold invATick at h
  split_ifs at h
  · exact Host.Outcome.next.inj h ▸ .rfl
  · exact decisionSequence_devices (s := s.setMaster (s.master.setDrv false)) h
  · obtain ⟨s', hs', h⟩ := andThen_eq_next.1 h
    have kept := dispatchMailbox_devices hs'
    exact Host.Outcome.next.inj h ▸ kept

theorem txFollowUp_devices (h : txFollowUp s = .next t) : s.master.SameDevices t.master := by
  cases hp : s.master.mph with
  | txPoll =>
    rw [txFollowUp_poll hp] at h
    obtain ⟨m', hm', h⟩ := andThen_eq_next.1 h
    obtain ⟨-, rfl⟩ := Master.armRx_eq_next.1 hm'
    exact Host.Outcome.next.inj h ▸ .rfl
  | txBcast => exact decisionSequence_devices (txFollowUp_bcast hp ▸ h)
  | txAnnounce =>
    rw [txFollowUp_announce hp] at h
    exact decisionSequence_devices
      (s := s.setMaster { s.master with mstate := .acceptingConnections, session := true }) h
  | txMarker =>
    rw [txFollowUp_marker hp] at h
    split_ifs at h
    · obtain ⟨m', hm', h⟩ := andThen_eq_next.1 h
      exact Host.Outcome.next.inj h ▸ armMarker_eq_next hm' ▸ .rfl
    · exact decisionSequence_devices (s := s.setMaster (closeSession s.master)) h
  | _ =>
    rw [txFollowUp_other (by simp [hp, MPhase.fmode])] at h
    exact Host.Outcome.next.inj h ▸ .rfl

theorem masterTxTick_devices (h : masterTxTick s = .next t) : s.master.SameDevices t.master := by
  rw [masterTxTick_eq] at h
  split_ifs at h
  · exact txFollowUp_devices (s := s.setMasterFramer s.master.fr.txTick.1) h
  · exact Host.Outcome.next.inj h ▸ .rfl

end DevicesKept

section DevicesChanged
variable {m m' : Master} {s t : State} {lv : Bool} {n : Nat}

/-- The assignment of id `i` at the end of the gap (42_master.md R183). -/
structure Master.Assigns (m m' : Master) (i : Byte) : Prop where
  phase : m.mph = .gapAssign
  gapEnds : m.gapCnt = 1
  lowest : lowestFree m.tab = some i
  table : m'.tab = setTabEntry m.tab i Entry.assigned
  cursor : m'.cursor = i
  word : m'.fr.txWord = assignWord i

/-- The polled id is freed with a fault recorded (60_exceptions.md R318). -/
def Master.Frees (m m' : Master) : Prop :=
  m'.tab.map Entry.connected = (setTabEntry m.tab m.cursor Entry.reset).map Entry.connected ∧
  m'.lastFault ≠ .none

/-- Writing an entry decides whether its id is connected, and says nothing of the others. -/
theorem connectedAt_setTabEntry {tab : List Entry} {i : Byte} {e₀ : Entry} (e : Entry)
    (h : tabEntry tab i = some e₀) (j : Byte) :
    connectedAt (setTabEntry tab i e) j = if j = i then e.connected else connectedAt tab j := by
  split_ifs with hj
  · rw [hj]
    exact connectedAt_setTabEntry_same h
  · unfold connectedAt
    rw [tabEntry_setTabEntry_other e (Ne.symm hj)]

/-- No stage raises the code none (42_master.md R187 to R191). -/
theorem stageRule_code_ne_none {data : Byte} {e : Entry} {code : FaultCode}
    (h : stageRule data e = .error code) : code ≠ .none := by
  unfold stageRule at h
  cases hs : e.stage with
  | expectIdentityByte0 | expectIdentityByte1 | expectIdentityByte2 => simp only [hs] at h; cases h
  | expectType =>
    simp only [hs, expectType] at h
    split_ifs at h
    cases h
    nofun
  | expectAck =>
    simp only [hs, expectAck] at h
    split_ifs at h
    cases h
    nofun
  | expectAny =>
    simp only [hs, expectAny] at h
    split_ifs at h
    cases h
    nofun

/-- A reply that is handled is accepted, or it raises a fault with a code (42_master.md R185, R186). -/
theorem handleReply_accepted_or_faulted {uid data endm c : Byte}
    (h : handleReply uid data endm c m = .next m') :
    (∃ e e', tabEntry m.tab m.cursor = some e ∧ stageRule data e = .ok e' ∧ m' = m.accepted e' endm) ∨
    ∃ code, code ≠ .none ∧ m' = m.faulted code := by
  obtain ⟨e, he, -⟩ := handleReply_eq_next h
  cases hv : fieldsValid uid data endm c with
  | false =>
    rw [handleReply_invalid he hv] at h
    exact .inr ⟨.checksum, nofun, (Host.Outcome.next.inj h).symm⟩
  | true =>
    by_cases hu : uid = m.cursor
    · subst hu
      cases hs : stageRule data e with
      | error code =>
        rw [handleReply_fault he hv hs] at h
        exact .inr ⟨code, stageRule_code_ne_none hs, (Host.Outcome.next.inj h).symm⟩
      | ok e' =>
        rw [handleReply_accepted he hv hs] at h
        exact .inl ⟨e, e', he, hs, (Host.Outcome.next.inj h).symm⟩
    · rw [handleReply_foreign he hv hu] at h
      exact .inr ⟨.protocol, nofun, (Host.Outcome.next.inj h).symm⟩

theorem Master.faulted_frees (m : Master) {code : FaultCode} (h : code ≠ .none) :
    m.Frees (m.faulted code) :=
  ⟨rfl, h⟩

/-- An accepted reply leaves the polled entry connected (42_master.md R187 to R191). -/
theorem Master.accepted_devices {data endm : Byte} {e e' : Entry} (ht : TableInv m.tab)
    (hc : connectedAt m.tab m.cursor = true) (he : tabEntry m.tab m.cursor = some e)
    (hs : stageRule data e = .ok e') : m.SameDevices (m.accepted e' endm) := by
  have hcon : e.connected = true := (connectedAt_of_tabEntry he).symm.trans hc
  obtain ⟨-, hcon'⟩ := (ht.entry he).stageRule hcon hs
  exact ⟨setTabEntry_map_connected he (hcon'.trans hcon.symm), rfl⟩

/-- A completed reply to a connected id keeps every id, or frees that one. -/
theorem completeReply_devices (ht : TableInv s.master.tab)
    (hc : connectedAt s.master.tab s.master.cursor = true) (h : completeReply s = .next t) :
    s.master.SameDevices t.master ∨ s.master.Frees t.master := by
  cases hf : s.master.fr.fstatus with
  | sync =>
    obtain ⟨e, he⟩ := tabEntry_of_assignable ht.1 (assignable_of_connectedAt hc)
    rw [silentReplyFaults s e he hf] at h
    obtain rfl := Host.Outcome.next.inj h
    exact .inr (s.master.faulted_frees nofun)
  | ok =>
    simp only [completeReply, hf, exec_decodeWord] at h
    rw [receive_master rfl] at h
    obtain ⟨m, hm, h⟩ := andThen_eq_next.1 h
    obtain rfl := Host.Outcome.next.inj h
    rcases handleReply_accepted_or_faulted hm with ⟨e, e', he, hs, rfl⟩ | ⟨code, hcode, rfl⟩
    · exact .inl (Master.accepted_devices ht hc he hs)
    · exact .inr (s.master.faulted_frees hcode)

theorem Master.Frees.trans_same {m'' : Master} (h : m.Frees m') (h' : m'.SameDevices m'') :
    m.Frees m'' :=
  ⟨h'.1.trans h.1, h'.2 ▸ h.2⟩

/-- A receive tick keeps every id, or completes a reply that frees the polled one
(42_master.md R172, R185). -/
theorem masterRxTick_devices (hm : s.master.Inv n) (hp : s.master.mph = .rxReply)
    (h : masterRxTick lv s = .next t) : s.master.SameDevices t.master ∨ s.master.Frees t.master := by
  obtain ⟨-, -, -, -, -, ht, -, hpoll, -⟩ := hm
  rw [masterRxTick_eq] at h
  split_ifs at h
  · obtain ⟨s', hs', h⟩ := andThen_eq_next.1 h
    have kept := decisionSequence_devices h
    have reply := completeReply_devices
      (s := s.setMasterFramer (s.master.fr.rxTick s.params.threshold lv).1) ht (hpoll (.inr hp)).1 hs'
    exact reply.imp (fun hsame => hsame.trans kept) (fun hfree => hfree.trans_same kept)
  · exact .inl (Host.Outcome.next.inj h ▸ .rfl)

/-- A gap tick keeps every id, or is the last one and assigns (42_master.md R183). -/
theorem gapAssignTick_devices (hm : m.Inv n) (hp : m.mph = .gapAssign)
    (h : gapAssignTick m = .next m') : m.SameDevices m' ∨ ∃ i, m.Assigns m' i := by
  obtain ⟨-, -, -, -, -, -, -, -, -, ⟨-, hgap, -⟩, -⟩ := hm
  rw [gapAssignTick_eq] at h
  split_ifs at h with h0
  · obtain ⟨i, hi, rfl⟩ := assignId_eq_next h
    have hpos : 1 ≤ m.gapCnt := hgap (.inl hp)
    have hlast : m.gapCnt - 1 = 0 := h0
    exact .inr ⟨i, hp, by omega, hi, rfl, rfl, rfl⟩
  · exact .inl (Host.Outcome.next.inj h ▸ .rfl)

/-- One tick of the master, phase by phase (42_master.md R161): it keeps every id, assigns one, or frees
the polled one. -/
theorem masterTick_devices (hm : s.master.Inv n) (h : masterTick lv s = .next t) :
    s.master.SameDevices t.master ∨ (∃ i, s.master.Assigns t.master i) ∨
    (s.master.mph = .rxReply ∧ s.master.Frees t.master) := by
  unfold masterTick at h
  cases hp : s.master.mph with
  | idle =>
    simp only [hp] at h
    exact .inl (decisionSequence_devices (s := s.setMaster (s.master.setDrv false)) h)
  | invFirst | invB =>
    simp only [hp] at h
    exact .inl (Host.Outcome.next.inj h ▸ .rfl)
  | invA =>
    simp only [hp] at h
    exact .inl (invATick_devices h)
  | gapAssign =>
    simp only [hp] at h
    obtain ⟨m', hm', h⟩ := andThen_eq_next.1 h
    obtain rfl := Host.Outcome.next.inj h
    exact (gapAssignTick_devices hm hp hm').imp_right .inl
  | gapMarker =>
    simp only [hp] at h
    obtain ⟨m', hm', h⟩ := andThen_eq_next.1 h
    exact .inl (Host.Outcome.next.inj h ▸ gapMarkerTick_devices hm')
  | rxReply =>
    simp only [hp] at h
    exact (masterRxTick_devices hm hp h).imp_right fun hfree => .inr ⟨rfl, hfree⟩
  | txPoll | txBcast | txAnnounce | txMarker =>
    simp only [hp] at h
    exact .inl (masterTxTick_devices h)

/-- An assignment connects its id and no other. -/
theorem Master.Assigns.connectedAt {i : Byte} (h : m.Assigns m' i) (ht : TableInv m.tab) (j : Byte) :
    connectedAt m'.tab j = if j = i then true else connectedAt m.tab j := by
  obtain ⟨-, e, he, -⟩ := lowestFree_eq_some ht.1 h.lowest
  rw [h.table]
  exact connectedAt_setTabEntry _ he j

/-- A fault frees the polled id and no other. -/
theorem Master.Frees.connectedAt (h : m.Frees m') (ht : TableInv m.tab) (ha : assignable m.cursor = true)
    (j : Byte) : connectedAt m'.tab j = if j = m.cursor then false else connectedAt m.tab j := by
  obtain ⟨e, he⟩ := tabEntry_of_assignable ht.1 ha
  rw [connectedAt_eq_of_map h.1]
  exact connectedAt_setTabEntry _ he j

/-- Settles O54: of the parts of a tick only the master's own changes what is connected, by an assignment
or by a fault. -/
theorem connectedSetChanges : Obligations.ConnectedSetChanges := by
  intro s t i hinv h hreset
  obtain ⟨-, s1, s2, h1, h2, rfl⟩ := tick_eq_next h
  rw [endTick_master, scanStep_master, slaveSteps_master h2]
  rw [masterStep_running hreset] at h1
  obtain ⟨s0, h0, h1⟩ := andThen_eq_next.1 h1
  have inv0 : s0.Inv := State.Inv.hostStep (s := s.setHostOut none) hinv h0
  have changes := masterTick_devices (State.inv_iff.1 inv0).2 h1
  obtain ⟨b, c, a, o, rfl⟩ := hostStep_eq_next h0
  obtain ⟨-, -, -, -, -, -, ht, ⟨ha, -⟩, -⟩ := State.inv_iff.1 hinv
  rcases changes with hsame | ⟨j, hj⟩ | ⟨hp, hfree⟩
  · have kept : connectedAt s1.master.tab i = connectedAt s.master.tab i := hsame.connectedAt i
    rw [kept]
    exact ⟨fun hd hc => by simp [hd] at hc, fun hc hd => by simp [hc] at hd⟩
  · have hcon : connectedAt s1.master.tab i = if i = j then true else connectedAt s.master.tab i :=
      hj.connectedAt ht i
    rw [hcon]
    refine ⟨fun hd hc => ?_, fun hc hd => by simp [hc] at hd⟩
    obtain rfl : i = j := by simpa [hd] using hc
    exact ⟨hj.phase, hj.gapEnds, hj.lowest, hj.cursor, hj.word⟩
  · have hcon : connectedAt s1.master.tab i =
        if i = s.master.cursor then false else connectedAt s.master.tab i := hfree.connectedAt ht ha i
    rw [hcon]
    refine ⟨fun hd hc => by simp [hd] at hc, fun hc hd => ?_⟩
    exact ⟨hp, by simpa [hc] using hd, hfree.2⟩

end DevicesChanged

end Sys2Proof.Machine
end

section
/-!
PROOF. What a slave becomes by a completed word, in one closed form (43_slave.md R214 to R238). The opcode
comes in through its rule alone, so each row of the opcode table is looked at once, in `ruleOf_means`; the
five states of a slave follow from it.
-/

namespace Sys2Proof.Machine

/-- An unassigned slave after a valid packet (43_slave.md R215). -/
def Slave.offered (uid cmd : Byte) (v : Slave) : Slave :=
  if cmd = opTypeQuery ∧ 1 ≤ uid.toNat ∧ uid.toNat ≤ 254 then
    ({ v with ownId := uid, sstate := .respondPending } : Slave).replying v.cfg.myType
  else { v with sph := .listen }

/-- A slave in `RespondPending` after a packet addressed to it (43_slave.md R217). -/
def Slave.pendingAnswer (cmd : Byte) (v : Slave) : Slave :=
  ({ v with afterTx := if cmd = opUidByte3 then .serving else v.afterTx } : Slave).replying (v.answer cmd)

/-- A serving slave after a packet addressed to it (43_slave.md R218). -/
def Slave.servingAnswer (cmd arg : Byte) (v : Slave) : Slave :=
  if cmd = opNewDevice then ({ v with smk := 0, afterTx := .standingBy } : Slave).replying opOk
  else (v.executed cmd arg).replying (v.answer cmd)

/-- The effect of a broadcast on a serving slave (43_slave.md R218). -/
def Slave.heardBroadcast (cmd arg : Byte) (v : Slave) : Slave :=
  if cmd = opNewDevice then { v with sstate := .standingBy, smk := 0 } else v.executed cmd arg

/-- The effect of a broadcast on a slave that stands by (43_slave.md R219). -/
def Slave.heardStandingBy (cmd : Byte) (v : Slave) : Slave :=
  if cmd = opNewDevice then v.countMarker else v

/-- A slave after the valid packet `{uid, cmd, arg}` (43_slave.md R215 to R219). -/
def Slave.afterPacket (uid cmd arg : Byte) (v : Slave) : Slave :=
  match v.sstate with
  | .unassigned => v.offered uid cmd
  | .respondPending => if uid = v.ownId then v.pendingAnswer cmd else v.listening
  | .serving =>
    if uid = v.ownId then v.servingAnswer cmd arg
    else if uid = 255 then (v.heardBroadcast cmd arg).listening
    else v.listening
  | .standingBy => if uid = 255 then (v.heardStandingBy cmd).listening else v.listening

/-- A slave after a word that is not valid (43_slave.md R214). -/
def Slave.afterInvalid (v : Slave) : Slave :=
  if v.sstate = .unassigned then { v with sph := .listen } else v.listening

/-- A slave after the completed word `w` (43_slave.md R214 to R219). -/
def Slave.afterWord (w : Word) (v : Slave) : Slave :=
  if wordValid w then v.afterPacket (uidOf w) (cmdOf w) (argOf w) else v.afterInvalid

section Effects
variable {cmd arg : Byte} {v : Slave}

/-- `Execute` writes the actuator registers only (10_state.md R36). -/
theorem ActuatorOnly.executed (cmd arg : Byte) : ActuatorOnly (Slave.executed cmd arg) := by
  intro v
  unfold Slave.executed
  split_ifs <;> exact ⟨rfl, rfl, rfl, rfl, rfl⟩

@[simp] theorem Slave.executed_fr : (v.executed cmd arg).fr = v.fr := by
  obtain ⟨hfr, -⟩ := ActuatorOnly.executed cmd arg v
  exact hfr

@[simp] theorem Slave.executed_sstate : (v.executed cmd arg).sstate = v.sstate := by
  obtain ⟨-, hst, -⟩ := ActuatorOnly.executed cmd arg v
  exact hst

@[simp] theorem Slave.executed_ownId : (v.executed cmd arg).ownId = v.ownId := by
  obtain ⟨-, -, hid, -⟩ := ActuatorOnly.executed cmd arg v
  exact hid

@[simp] theorem Slave.executed_cfg : (v.executed cmd arg).cfg = v.cfg := by
  unfold Slave.executed
  split_ifs <;> rfl

@[simp] theorem Slave.heardBroadcast_fr : (v.heardBroadcast cmd arg).fr = v.fr := by
  unfold Slave.heardBroadcast
  split_ifs
  · rfl
  · exact executed_fr

@[simp] theorem Slave.countMarker_fr : v.countMarker.fr = v.fr := by
  unfold Slave.countMarker
  split_ifs <;> rfl

@[simp] theorem Slave.heardStandingBy_fr : (v.heardStandingBy cmd).fr = v.fr := by
  unfold Slave.heardStandingBy
  split_ifs
  · exact countMarker_fr
  · rfl

end Effects

/-- The rule `r` is that of the packets `{uid, cmd, arg}`: in a slave whose framer is free each of its parts
is the closed form above. -/
structure SlaveRule.Means (r : SlaveRule) (uid cmd arg : Byte) : Prop where
  unassigned : ∀ v : Slave, v.fr.fmode = .idle → r.unassigned v = .next (v.offered uid cmd)
  pending : ∀ v : Slave, v.fr.fmode = .idle → r.pending v = .next (v.pendingAnswer cmd)
  serving : ∀ v : Slave, v.fr.fmode = .idle → r.serving v = .next (v.servingAnswer cmd arg)
  bcast : ∀ v : Slave, r.bcast v = v.heardBroadcast cmd arg
  standby : ∀ v : Slave, r.standby v = v.heardStandingBy cmd

section Rules
variable {uid cmd arg : Byte} {v : Slave}

theorem Slave.offered_other (h : cmd ≠ opTypeQuery) : v.offered uid cmd = { v with sph := .listen } :=
  if_neg fun hc => h hc.1

theorem Slave.pendingAnswer_other (h : cmd ≠ opUidByte3) :
    v.pendingAnswer cmd = v.replying (v.answer cmd) := by
  simp only [pendingAnswer, if_neg h]

theorem Slave.servingAnswer_other (h : cmd ≠ opNewDevice) :
    v.servingAnswer cmd arg = (v.executed cmd arg).replying (v.answer cmd) := if_neg h

theorem Slave.heardBroadcast_other (h : cmd ≠ opNewDevice) :
    v.heardBroadcast cmd arg = v.executed cmd arg := if_neg h

theorem Slave.heardStandingBy_other (h : cmd ≠ opNewDevice) : v.heardStandingBy cmd = v := if_neg h

/-- The rule of an opcode that changes no phase of the handshake or of the session: `Execute` and the answer
(43_slave.md R217, R218). -/
def plainRule (cmd arg : Byte) : SlaveRule :=
  { unassigned := Slave.backToListen
    pending := fun v => v.reply (v.answer cmd)
    serving := fun v => (v.executed cmd arg).reply (v.answer cmd)
    bcast := Slave.executed cmd arg
    standby := id }

theorem means_of_eq_plainRule {r : SlaveRule} (hr : r = plainRule cmd arg)
    (hne : cmd ≠ opTypeQuery ∧ cmd ≠ opUidByte3 ∧ cmd ≠ opNewDevice) : r.Means uid cmd arg := by
  subst hr
  obtain ⟨htype, hbyte3, hnew⟩ := hne
  refine ⟨fun v _ => ?_, fun v hm => ?_, fun v hm => ?_, fun v => ?_, fun v => ?_⟩
  · rw [Slave.offered_other htype]
    rfl
  · rw [Slave.pendingAnswer_other hbyte3]
    exact Slave.reply_idle _ hm
  · rw [Slave.servingAnswer_other hnew]
    exact Slave.reply_idle _ (by rw [Slave.executed_fr, hm])
  · exact (Slave.heardBroadcast_other hnew).symm
  · exact (Slave.heardStandingBy_other hnew).symm

theorem uidByte3Rule_means : uidByte3Rule.Means uid opUidByte3 arg :=
  ⟨fun _ _ => rfl, fun _ hm => Slave.reply_idle _ hm, fun _ hm => Slave.reply_idle _ hm, fun _ => rfl,
    fun _ => rfl⟩

theorem typeQueryRule_means : (typeQueryRule uid).Means uid opTypeQuery arg := by
  refine ⟨fun v hm => ?_, fun _ hm => Slave.reply_idle _ hm, fun _ hm => Slave.reply_idle _ hm,
    fun _ => rfl, fun _ => rfl⟩
  unfold Slave.offered
  split_ifs with hid
  · exact (if_pos (decide_eq_true hid.2)).trans (Slave.reply_idle _ hm)
  · exact if_neg fun ha => hid ⟨rfl, of_decide_eq_true ha⟩

theorem newDeviceRule_means : newDeviceRule.Means uid opNewDevice arg :=
  ⟨fun _ _ => rfl, fun _ hm => Slave.reply_idle _ hm, fun _ hm => Slave.reply_idle _ hm, fun _ => rfl,
    fun _ => rfl⟩

/-- An opcode past 0x11 is none of the map (30_encoding.md R102). -/
theorem ne_of_unrecognised {op : Byte} (h : ¬ cmd.toNat ≤ 0x11) (hop : op.toNat ≤ 0x11) : cmd ≠ op :=
  fun hc => h (hc ▸ hop)

/-- An unrecognised opcode does nothing (43_slave.md R238). -/
theorem Slave.executed_unrecognised (h : ¬ cmd.toNat ≤ 0x11) : v.executed cmd arg = v := by
  have other {op : Byte} (hop : op.toNat ≤ 0x11) : cmd ≠ op := ne_of_unrecognised h hop
  rw [executed, if_neg (other (by decide)), if_neg (other (by decide)), if_neg (other (by decide)),
    if_neg (other (by decide)), if_neg (other (by decide))]

/-- An unrecognised opcode is answered with `ERROR` (43_slave.md R238). -/
theorem Slave.answer_unrecognised (h : ¬ cmd.toNat ≤ 0x11) : v.answer cmd = opError := by
  have other {op : Byte} (hop : op.toNat ≤ 0x11) : cmd ≠ op := ne_of_unrecognised h hop
  rw [answer, if_neg (other (by decide)), if_neg (other (by decide)), if_neg (other (by decide)),
    if_neg (other (by decide)), if_neg h]

theorem unrecognised_means (h : ¬ cmd.toNat ≤ 0x11) : (queryRule fun _ => opError).Means uid cmd arg := by
  have rule : (queryRule fun _ => opError) = plainRule cmd arg := by
    have effect : Slave.executed cmd arg = id := funext fun _ => Slave.executed_unrecognised h
    simp only [plainRule, effect, Slave.answer_unrecognised h]
    rfl
  have other {op : Byte} (hop : op.toNat ≤ 0x11) : cmd ≠ op := ne_of_unrecognised h hop
  exact means_of_eq_plainRule rule ⟨other (by decide), other (by decide), other (by decide)⟩

end Rules

section Rows
variable {uid cmd arg c : Byte} {i : Instr}

/-- The fields of a packed word are the ones it was packed from (41_checksum.md R150). -/
theorem fields_of_packed {u op a : Byte} (h : wordOf u op a c = pack uid cmd arg) :
    u = uid ∧ op = cmd ∧ a = arg := by
  have hu := congrArg uidOf h
  have ho := congrArg cmdOf h
  have ha := congrArg argOf h
  rw [pack, uidOf_wordOf, uidOf_wordOf] at hu
  rw [pack, cmdOf_wordOf, cmdOf_wordOf] at ho
  rw [pack, argOf_wordOf, argOf_wordOf] at ha
  exact ⟨hu, ho, ha⟩

/-- The rule of a packet instruction is that of its packets, row by row of the opcode table
(43_slave.md R220 to R238). -/
theorem ruleOf_means (hi : isPacket i uid cmd arg) : (ruleOf i).Means uid cmd arg := by
  obtain ⟨hs, hwf, hw⟩ := hi
  cases i with
  | hostLight1 | hostLight0 | hostMotor | hostBitmap | hostEnable | hostCancel | hostLastFault => cases hs
  | uidByte3 =>
    obtain ⟨rfl, rfl, rfl⟩ := fields_of_packed hw
    exact uidByte3Rule_means
  | typeQuery =>
    obtain ⟨rfl, rfl, rfl⟩ := fields_of_packed hw
    exact typeQueryRule_means
  | newDevice =>
    obtain ⟨rfl, rfl, rfl⟩ := fields_of_packed hw
    exact newDeviceRule_means
  | unrecognised =>
    obtain ⟨rfl, rfl, rfl⟩ := fields_of_packed hw
    exact unrecognised_means (by simpa [Instr.wf, recognised] using hwf)
  | _ =>
    obtain ⟨rfl, rfl, rfl⟩ := fields_of_packed hw
    exact means_of_eq_plainRule rfl (by decide)

end Rows

section Words
variable {uid cmd arg c : Byte} {r : SlaveRule} {v : Slave} {w : Word}

theorem Slave.afterPacket_unassigned (h : v.sstate = .unassigned) :
    v.afterPacket uid cmd arg = v.offered uid cmd := by
  simp only [afterPacket, h]

theorem Slave.afterPacket_pending (h : v.sstate = .respondPending) :
    v.afterPacket uid cmd arg = if uid = v.ownId then v.pendingAnswer cmd else v.listening := by
  simp only [afterPacket, h]

theorem Slave.afterPacket_serving (h : v.sstate = .serving) :
    v.afterPacket uid cmd arg =
      if uid = v.ownId then v.servingAnswer cmd arg
      else if uid = 255 then (v.heardBroadcast cmd arg).listening else v.listening := by
  simp only [afterPacket, h]

theorem Slave.afterPacket_standingBy (h : v.sstate = .standingBy) :
    v.afterPacket uid cmd arg = if uid = 255 then (v.heardStandingBy cmd).listening else v.listening := by
  simp only [afterPacket, h]

theorem onPacket_eq_afterInvalid (hm : v.fr.fmode = .idle) (hv : fieldsValid uid cmd arg c = false) :
    onPacket uid cmd arg c r v = .next v.afterInvalid := by
  rw [onPacket_invalid hv, Slave.afterInvalid]
  split_ifs
  · rfl
  · exact Slave.rearm_idle hm

/-- `OnPacket` (43_slave.md R215 to R219) by the state of the slave. -/
theorem onPacket_eq_afterPacket (hr : r.Means uid cmd arg) (hm : v.fr.fmode = .idle)
    (hv : fieldsValid uid cmd arg c = true) :
    onPacket uid cmd arg c r v = .next (v.afterPacket uid cmd arg) := by
  have ignored : v.rearm = .next v.listening := Slave.rearm_idle hm
  cases hs : v.sstate with
  | unassigned =>
    rw [onPacket_unassigned hv hs, hr.unassigned v hm, Slave.afterPacket_unassigned hs]
  | respondPending =>
    rw [onPacket_pending hv hs, hr.pending v hm, ignored, Slave.afterPacket_pending hs]
    split_ifs <;> rfl
  | serving =>
    have heard : (v.heardBroadcast cmd arg).rearm = .next (v.heardBroadcast cmd arg).listening :=
      Slave.rearm_idle (by rw [Slave.heardBroadcast_fr, hm])
    rw [onPacket_serving hv hs, hr.serving v hm, hr.bcast, heard, ignored, Slave.afterPacket_serving hs,
      Config.bcastId]
    split_ifs <;> rfl
  | standingBy =>
    have heard : (v.heardStandingBy cmd).rearm = .next (v.heardStandingBy cmd).listening :=
      Slave.rearm_idle (by rw [Slave.heardStandingBy_fr, hm])
    rw [onPacket_standingBy hv hs, hr.standby, heard, ignored, Slave.afterPacket_standingBy hs,
      Config.bcastId]
    split_ifs <;> rfl

/-- A word is the packed word of its fields exactly when it is valid (41_checksum.md R150, R151). -/
theorem pack_fields (hv : wordValid w = true) : pack (uidOf w) (cmdOf w) (argOf w) = w := by
  rw [pack, ← wordValid_iff_cks.1 hv, wordOf_fields]

theorem decodeWord_isPacket (hv : wordValid w = true) :
    isPacket (decodeWord w) (uidOf w) (cmdOf w) (argOf w) := by
  obtain ⟨hs, hwf, hw⟩ := decodeWord_isPacketOf w
  exact ⟨hs, hwf, hw.trans (pack_fields hv).symm⟩

/-- The completed word of a slave, whatever it is. -/
theorem onPacket_eq_afterWord (hm : v.fr.fmode = .idle) :
    onPacket (uidOf w) (cmdOf w) (argOf w) (cksOf w) (ruleOf (decodeWord w)) v = .next (v.afterWord w) := by
  unfold Slave.afterWord
  split_ifs with hv
  · exact onPacket_eq_afterPacket (ruleOf_means (decodeWord_isPacket hv)) hm hv
  · exact onPacket_eq_afterInvalid hm (by simpa [wordValid] using hv)

end Words

section Executed
variable {s : State} {k : Nat} {v : Slave} {i : Instr} {uid cmd arg : Byte}

/-- A packet instruction with a slave as the receiver is the closed form of its word (log 5). -/
theorem exec_received (h : s.hasReceived k v) (hs : i.source = .line) (hwf : i.wf = true) :
    exec i s = .next (s.setSlave k (v.afterWord i.word)) := by
  obtain ⟨hr, hk, hm⟩ := h
  calc exec i s
      = exec (decodeWord i.word) s := by rw [decodeWord_word hs hwf]
    _ = _ := (exec_decodeWord i.word s).trans (receive_slave hr hk)
    _ = _ := by rw [onPacket_eq_afterWord hm, andThen_next]

/-- A packed word is valid, and its fields are the ones it was packed from. -/
theorem Slave.afterWord_pack : v.afterWord (pack uid cmd arg) = v.afterPacket uid cmd arg := by
  have hv : wordValid (pack uid cmd arg) = true := by
    rw [wordValid_iff_cks, pack, uidOf_wordOf, cmdOf_wordOf, argOf_wordOf, cksOf_wordOf]
  rw [afterWord, if_pos hv, pack, uidOf_wordOf, cmdOf_wordOf, argOf_wordOf]

theorem exec_packet (h : s.hasReceived k v) (hi : isPacket i uid cmd arg) :
    exec i s = .next (s.setSlave k (v.afterPacket uid cmd arg)) := by
  obtain ⟨hs, hwf, hw⟩ := hi
  rw [exec_received h hs hwf, hw, Slave.afterWord_pack]

/-- Settles O15: the closed form of a word that is not valid. -/
theorem invalidWordDropped : Obligations.InvalidWordDropped := by
  intro s k v i h hs hwf hv
  have dropped : v.afterWord i.word = v.afterInvalid := if_neg (by simp [hv])
  rw [exec_received h hs hwf, dropped]
  rfl

/-- Settles O16: the closed form of an unassigned slave. -/
theorem unassignedSlaveTakesId : Obligations.UnassignedSlaveTakesId := by
  intro s k v i uid cmd arg h hst hi
  rw [exec_packet h hi, Slave.afterPacket_unassigned hst]
  rfl

/-- Settles O17: the closed form of a slave in `RespondPending`. -/
theorem respondPendingSlave : Obligations.RespondPendingSlave := by
  intro s k v i uid cmd arg h hst hi
  rw [exec_packet h hi, Slave.afterPacket_pending hst]
  rfl

/-- A broadcast ends with the receiver armed, whatever its effect was. -/
theorem Slave.heardBroadcast_listening :
    (v.heardBroadcast cmd arg).listening =
      if cmd = opNewDevice then ({ v with sstate := .standingBy, smk := 0 } : Slave).listening
      else (v.executed cmd arg).listening :=
  apply_ite Slave.listening ..

/-- Settles O18: the closed form of a serving slave. -/
theorem servingSlave : Obligations.ServingSlave := by
  intro s k v i uid cmd arg h hst hi
  rw [exec_packet h hi, Slave.afterPacket_serving hst, Slave.heardBroadcast_listening]
  rfl

/-- Settles O19: a slave that stands by counts the markers, and only those. -/
theorem standingBySlave : Obligations.StandingBySlave := by
  intro s k v i uid cmd arg h hst hi
  rw [exec_packet h hi, Slave.afterPacket_standingBy hst]
  by_cases hu : uid = 255
  · by_cases hc : cmd = 0x05
    · have counted : v.heardStandingBy cmd = v.countMarker := if_pos hc
      rw [if_pos hu, if_pos ⟨hu, hc⟩, counted]
      rfl
    · rw [if_pos hu, if_neg (hc ·.2), Slave.heardStandingBy_other hc]
  · rw [if_neg hu, if_neg (hu ·.1)]

/-- A serving slave and a packet addressed to it. -/
theorem exec_addressed (h : s.hasReceived k v) (hst : v.sstate = .serving)
    (hi : isPacket i v.ownId cmd arg) :
    exec i s = .next (s.setSlave k (v.servingAnswer cmd arg)) := by
  rw [exec_packet h hi, Slave.afterPacket_serving hst, if_pos rfl]

/-- A serving slave and a broadcast; no slave has the broadcast id (43_slave.md R216). -/
theorem exec_broadcast (h : s.hasReceived k v) (hst : v.sstate = .serving) (hne : v.ownId ≠ 255)
    (hi : isPacket i 255 cmd arg) :
    exec i s = .next (s.setSlave k (v.heardBroadcast cmd arg).listening) := by
  rw [exec_packet h hi, Slave.afterPacket_serving hst, if_neg hne.symm, if_pos rfl]

/-- Settles O20: each actuator opcode, addressed and by broadcast. -/
theorem actuatorCommands : Obligations.ActuatorCommands := by
  intro s k v arg h hst hne
  have addressed (i : Instr) (cmd : Byte) (hi : isPacket i v.ownId cmd arg) := exec_addressed h hst hi
  have broadcast (i : Instr) (cmd : Byte) (hi : isPacket i 255 cmd arg) := exec_broadcast h hst hne hi
  exact ⟨addressed _ opLightOn ⟨rfl, rfl, rfl⟩, broadcast _ opLightOn ⟨rfl, rfl, rfl⟩,
    addressed _ opLightOff ⟨rfl, rfl, rfl⟩, broadcast _ opLightOff ⟨rfl, rfl, rfl⟩,
    addressed _ opStop ⟨rfl, rfl, rfl⟩, broadcast _ opStop ⟨rfl, rfl, rfl⟩,
    addressed _ opMotorA ⟨rfl, rfl, rfl⟩, broadcast _ opMotorA ⟨rfl, rfl, rfl⟩,
    addressed _ opMotorB ⟨rfl, rfl, rfl⟩, broadcast _ opMotorB ⟨rfl, rfl, rfl⟩⟩

/-- An unrecognised opcode, addressed to a serving slave (43_slave.md R238). -/
theorem exec_unrecognised (h : s.hasReceived k v) (hst : v.sstate = .serving) (hc : 0x12 ≤ cmd.toNat) :
    exec (.unrecognised v.ownId cmd arg (cks v.ownId cmd arg)) s =
      .next (s.setSlave k (v.replying opError)) := by
  have above : ¬ cmd.toNat ≤ 0x11 := by omega
  have hwf : (Instr.unrecognised v.ownId cmd arg (cks v.ownId cmd arg)).wf = true := by
    simp [Instr.wf, recognised, above]
  rw [exec_addressed h hst ⟨rfl, hwf, rfl⟩,
    Slave.servingAnswer_other (ne_of_unrecognised above (by decide)), Slave.executed_unrecognised above,
    Slave.answer_unrecognised above]

/-- Settles O21: the reply of each opcode, and no effect. -/
theorem otherCommandsAddressed : Obligations.OtherCommandsAddressed := by
  intro s k v arg cmd h hst
  have addressed (i : Instr) (cmd : Byte) (hi : isPacket i v.ownId cmd arg) := exec_addressed h hst hi
  refine ⟨?_, addressed _ opNewDevice ⟨rfl, rfl, rfl⟩, addressed _ opUidByte1 ⟨rfl, rfl, rfl⟩,
    addressed _ opUidByte2 ⟨rfl, rfl, rfl⟩, addressed _ opUidByte3 ⟨rfl, rfl, rfl⟩,
    addressed _ opTypeQuery ⟨rfl, rfl, rfl⟩, exec_unrecognised h hst⟩
  simp only [List.forall_mem_cons]
  exact ⟨addressed _ opNop ⟨rfl, rfl, rfl⟩, addressed _ opEndOfTurn ⟨rfl, rfl, rfl⟩,
    addressed _ opData ⟨rfl, rfl, rfl⟩, addressed _ opError ⟨rfl, rfl, rfl⟩,
    addressed _ opOk ⟨rfl, rfl, rfl⟩, addressed _ opDisconnect ⟨rfl, rfl, rfl⟩,
    addressed _ opTrain ⟨rfl, rfl, rfl⟩, addressed _ opStation ⟨rfl, rfl, rfl⟩, nofun⟩

end Executed

end Sys2Proof.Machine
end

section
/-!
PROOF. The ticks of a slave alone (43_slave.md R210 to R213): when it drives the line, when it starts a
reply, and that it keeps its id (43_slave.md R239, R240). Everything a completed word can make of a slave is
said once, in `afterWord_cases`.
-/

namespace Sys2Proof.Machine

/-- `u` is the slave `v` with its id, which it has not lost if it had one (43_slave.md R240). -/
structure Slave.KeepsId (v u : Slave) : Prop where
  assigned : v.sstate ≠ .unassigned → u.sstate ≠ .unassigned
  ownId : u.ownId = v.ownId
  cfg : u.cfg = v.cfg

section CompletedWord
variable {uid cmd arg d : Byte} {w : Word} {v u : Slave}

theorem Slave.KeepsId.refl (v : Slave) : v.KeepsId v := ⟨id, rfl, rfl⟩

theorem Slave.KeepsId.listening (h : v.KeepsId u) : v.KeepsId u.listening := { h with }

theorem Slave.KeepsId.replying (h : v.KeepsId u) : v.KeepsId (u.replying d) := { h with }

theorem Slave.executed_keepsId : v.KeepsId (v.executed cmd arg) :=
  ⟨fun h => by rwa [executed_sstate], executed_ownId, executed_cfg⟩

theorem Slave.heardBroadcast_keepsId : v.KeepsId (v.heardBroadcast cmd arg) := by
  unfold heardBroadcast
  split_ifs
  · exact ⟨nofun, rfl, rfl⟩
  · exact executed_keepsId

theorem Slave.countMarker_keepsId : v.KeepsId v.countMarker := by
  unfold countMarker
  split_ifs
  · exact ⟨nofun, rfl, rfl⟩
  · exact ⟨id, rfl, rfl⟩

theorem Slave.heardStandingBy_keepsId : v.KeepsId (v.heardStandingBy cmd) := by
  unfold heardStandingBy
  split_ifs
  · exact countMarker_keepsId
  · exact .refl _

/-- `v'` is the reply, armed on this tick, to a packet with the id `uid`. -/
def Slave.Answers (uid : Byte) (v v' : Slave) : Prop :=
  ∃ u d, v' = u.replying d ∧ u.fr = v.fr ∧ uid = u.ownId ∧ (v.sstate ≠ .unassigned → v.KeepsId u)

/-- `v'` listens for the next packet, with the id `v` had. -/
def Slave.ListensOn (v v' : Slave) : Prop := ∃ u, v' = u.listening ∧ u.fr = v.fr ∧ v.KeepsId u

theorem Slave.listening_listensOn : v.ListensOn v.listening := ⟨v, rfl, rfl, .refl _⟩

theorem Slave.pendingAnswer_answers : v.Answers v.ownId (v.pendingAnswer cmd) :=
  ⟨_, _, rfl, rfl, rfl, fun _ => ⟨id, rfl, rfl⟩⟩

theorem Slave.servingAnswer_answers : v.Answers v.ownId (v.servingAnswer cmd arg) := by
  unfold servingAnswer
  split_ifs
  · exact ⟨_, _, rfl, rfl, rfl, fun _ => ⟨id, rfl, rfl⟩⟩
  · exact ⟨_, _, rfl, executed_fr, executed_ownId.symm, fun _ => executed_keepsId⟩

/-- Everything a valid packet can make of a slave, by its state (43_slave.md R215 to R219). -/
theorem Slave.afterPacket_cases (uid cmd arg : Byte) (v : Slave) :
    (v.sstate = .unassigned ∧ v.afterPacket uid cmd arg = { v with sph := .listen }) ∨
    v.ListensOn (v.afterPacket uid cmd arg) ∨ v.Answers uid (v.afterPacket uid cmd arg) := by
  obtain ⟨st, hs⟩ : ∃ st, v.sstate = st := ⟨_, rfl⟩
  cases st with
  | unassigned =>
    rw [afterPacket_unassigned hs, offered]
    split_ifs
    · exact .inr (.inr ⟨_, _, rfl, rfl, rfl, fun h => absurd hs h⟩)
    · exact .inl ⟨hs, rfl⟩
  | respondPending =>
    rw [afterPacket_pending hs]
    split_ifs with hu
    · exact .inr (.inr (hu ▸ pendingAnswer_answers))
    · exact .inr (.inl listening_listensOn)
  | serving =>
    rw [afterPacket_serving hs]
    split_ifs with hu
    · exact .inr (.inr (hu ▸ servingAnswer_answers))
    · exact .inr (.inl ⟨_, rfl, heardBroadcast_fr, heardBroadcast_keepsId⟩)
    · exact .inr (.inl listening_listensOn)
  | standingBy =>
    rw [afterPacket_standingBy hs]
    split_ifs
    · exact .inr (.inl ⟨_, rfl, heardStandingBy_fr, heardStandingBy_keepsId⟩)
    · exact .inr (.inl listening_listensOn)

/-- Everything a completed word can make of a slave: it answers a valid one that has its id only. -/
theorem Slave.afterWord_cases (w : Word) (v : Slave) :
    (v.sstate = .unassigned ∧ v.afterWord w = { v with sph := .listen }) ∨
    v.ListensOn (v.afterWord w) ∨ (wordValid w = true ∧ v.Answers (uidOf w) (v.afterWord w)) := by
  unfold afterWord
  split_ifs with hv
  · rcases v.afterPacket_cases (uidOf w) (cmdOf w) (argOf w) with h | h | h
    · exact .inl h
    · exact .inr (.inl h)
    · exact .inr (.inr ⟨hv, h⟩)
  · unfold afterInvalid
    split_ifs with hs
    · exact .inl ⟨hs, rfl⟩
    · exact .inr (.inl listening_listensOn)

/-- A completed word does not drive the line on its own tick (40_framer.md R121, R130). -/
@[simp] theorem Slave.afterWord_drv : (v.afterWord w).fr.drv = v.fr.drv := by
  rcases v.afterWord_cases w with ⟨-, h⟩ | ⟨u, h, hf, -⟩ | ⟨-, u, d, h, hf, -⟩
  · rw [h]
  · rw [h, listening_fr, Framer.seeking_drv, hf]
  · rw [h, replying_fr, Framer.sending_drv, hf]

/-- A slave that is to reply after a word has been asked to, by its own id (43_slave.md R239). -/
theorem Slave.afterWord_tx (h : (v.afterWord w).sph = .tx) :
    wordValid w = true ∧ uidOf w = (v.afterWord w).ownId := by
  rcases v.afterWord_cases w with ⟨-, hl⟩ | ⟨u, hl, -⟩ | ⟨hv, u, d, hr, -, huid, -⟩
  · simp [hl] at h
  · simp [hl] at h
  · exact ⟨hv, by rw [hr, replying_ownId, huid]⟩

theorem Slave.afterWord_keepsId (h : v.sstate ≠ .unassigned) : v.KeepsId (v.afterWord w) := by
  rcases v.afterWord_cases w with ⟨hs, -⟩ | ⟨u, hl, -, hu⟩ | ⟨-, u, d, hr, -, -, hu⟩
  · exact absurd hs h
  · exact hl ▸ hu.listening
  · exact hr ▸ (hu h).replying

end CompletedWord

section OwnTick
variable {lv rst : Bool} {v v' : Slave} {f : Framer} {b : Bool}

/-- A receiver without a threshold completes by the trailing tick of a word only (40_framer.md R132,
R133). -/
theorem Framer.rxTick_none_done (h : (f.rxTick none b).2 = true) : f.lastTickOf f.rxVal := by
  obtain ⟨hm, -, ⟨hs, hp, -⟩ | ⟨hs, -⟩⟩ := rxTick_done h
  · exact ⟨hm, hs, hp, rfl⟩
  · exfalso
    by_cases hf : f.FailsOn b
    · rw [rxTick_fails hm hf, failedDetection_counts (by simp)] at h
      cases h
    · cases hsub : f.rxSub with
      | seekHi =>
        obtain rfl : b = true := by simpa [FailsOn, hsub] using hf
        simp [rxTick_seekHi_active none hm hsub] at h
      | seekLo =>
        obtain rfl : b = false := by simpa [FailsOn, hsub] using hf
        simp [rxTick_seekLo_idle none hm hsub] at h
      | data => exact hs hsub

/-- Everything a receive tick can make of a slave (43_slave.md R213). -/
theorem Slave.ownRxTick_eq_next (h : v.ownRxTick lv = .next v') :
    (∃ g : Framer, g.drv = v.fr.drv ∧ v' = { v with fr := g }) ∨
    ∃ w, v.fr.lastTickOf w ∧ v' = ({ v with fr := v.fr.received w } : Slave).afterWord w := by
  unfold ownRxTick at h
  cases hd : (v.fr.rxTick none lv).2 with
  | false =>
    simp only [hd] at h
    exact .inl ⟨_, Framer.rxTick_drv, (Host.Outcome.next.inj h).symm⟩
  | true =>
    have last := Framer.rxTick_none_done hd
    simp only [Framer.rxTick_lastTick none lv last, if_true, Framer.received_rxVal] at h
    rw [onPacket_eq_afterWord rfl] at h
    exact .inr ⟨_, last, (Host.Outcome.next.inj h).symm⟩

/-- Everything a transmit tick can make of a slave (43_slave.md R213). -/
theorem slaveTxTick_eq_next (h : slaveTxTick v = .next v') :
    ∃ g : Framer, v' = { v with fr := g } ∨ v' = ({ v with fr := g } : Slave).settle.listening := by
  unfold slaveTxTick at h
  refine ⟨v.fr.txTick.1, ?_⟩
  cases hd : v.fr.txTick.2 with
  | false =>
    simp only [hd] at h
    exact .inl (Host.Outcome.next.inj h).symm
  | true =>
    simp only [hd, if_true] at h
    exact .inr (Slave.rearm_eq_next.1 h).2

/-- Everything a tick can make of a slave, by its phase (43_slave.md R210 to R213). -/
theorem Slave.ownTick_cases (h : v.ownTick lv = .next v') :
    (v.sph = .listen ∧ v' = listenTick lv v) ∨
    (v.sph = .presRel ∧ v' = (v.setDrv false).listening) ∨
    (v.sph = .rx ∧ ∃ g : Framer, g.drv = v.fr.drv ∧ v' = { v with fr := g }) ∨
    (v.sph = .rx ∧ ∃ w, v.fr.lastTickOf w ∧
      v' = ({ v with fr := v.fr.received w } : Slave).afterWord w) ∨
    (v.sph = .tx ∧ ∃ g : Framer,
      v' = { v with fr := g } ∨ v' = ({ v with fr := g } : Slave).settle.listening) := by
  unfold ownTick at h
  obtain ⟨p, hp⟩ : ∃ p, v.sph = p := ⟨_, rfl⟩
  rw [hp] at h
  cases p with
  | listen => exact .inl ⟨hp, (Host.Outcome.next.inj h).symm⟩
  | presRel =>
    obtain ⟨-, released⟩ := rearm_eq_next.1 h
    exact .inr (.inl ⟨hp, released⟩)
  | rx =>
    rcases ownRxTick_eq_next h with hg | hw
    · exact .inr (.inr (.inl ⟨hp, hg⟩))
    · exact .inr (.inr (.inr (.inl ⟨hp, hw⟩)))
  | tx => exact .inr (.inr (.inr (.inr ⟨hp, slaveTxTick_eq_next h⟩)))

/-- A slave of the invariant that drives the line has answered an active sample in `LISTEN`, or is inside a
reply (43_slave.md R239). -/
theorem Slave.Inv.driven_of_ownTick (hv : v.Inv) (h : v.ownTick lv = .next v') (hd : v'.fr.drv = true) :
    v.sph = .listen ∧ v.sstate = .unassigned ∧ lv = true ∨
      v.sph = .tx ∧ (v.sstate = .respondPending ∨ v.sstate = .serving) := by
  obtain ⟨⟨-, -, -, undriven, -⟩, hm, hidle, -, -, -, -, hreplies, -⟩ := hv
  rcases Slave.ownTick_cases h with ⟨hp, rfl⟩ | ⟨-, rfl⟩ | ⟨hp, g, hg, rfl⟩ | ⟨hp, w, -, rfl⟩ | ⟨hp, -⟩
  · cases lv with
    | true =>
      obtain ⟨hs, -⟩ := hidle (by rw [hp, SPhase.fmode])
      exact .inl ⟨hp, hs, rfl⟩
    | false => simp [Machine.listenTick] at hd
  · simp at hd
  · rw [hg, undriven (by rw [hm, hp, SPhase.fmode])] at hd
    cases hd
  · rw [Slave.afterWord_drv, Framer.received_drv, undriven (by rw [hm, hp, SPhase.fmode])] at hd
    cases hd
  · exact .inr ⟨hp, hreplies hp⟩

/-- A reply of the invariant carries the id of its slave, which is not the broadcast one, and `END-OF-TURN`
(43_slave.md R213, R239). -/
theorem Slave.Inv.reply_word (hv : v.Inv) (hp : v.sph = .tx) :
    v.ownId ≠ 255 ∧ (v.sstate = .respondPending ∨ v.sstate = .serving) ∧
      v.fr.txWord = pack v.ownId (cmdOf v.fr.txWord) opEndOfTurn := by
  obtain ⟨-, -, -, -, hassigned, -, -, hreplies, hword, -⟩ := hv
  refine ⟨fun hb => ?_, hreplies hp, hword hp⟩
  have hid : assignable v.ownId = true := hassigned (by rcases hreplies hp with hs | hs <;> simp [hs])
  rw [hb] at hid
  exact absurd hid (by decide)

/-- A slave starts a reply on the last tick of a valid word with its own id only (43_slave.md R239). -/
theorem Slave.ownTick_starts_reply (h : v.ownTick lv = .next v') (hp : v.sph ≠ .tx) (ht : v'.sph = .tx) :
    v.sph = .rx ∧ ∃ w, v.fr.lastTickOf w ∧ wordValid w = true ∧ uidOf w = v'.ownId := by
  rcases ownTick_cases h with ⟨-, rfl⟩ | ⟨-, rfl⟩ | ⟨-, g, -, rfl⟩ | ⟨hrx, w, hw, rfl⟩ | ⟨htx, -⟩
  · cases lv with
    | true => cases ht
    | false => exact absurd ht hp
  · cases ht
  · exact absurd ht hp
  · obtain ⟨hvalid, huid⟩ := afterWord_tx ht
    exact ⟨hrx, w, hw, hvalid, huid⟩
  · exact absurd htx hp

/-- The state a reply promises is never `Unassigned` (10_state.md R35). -/
theorem AfterTx.target_ne_unassigned {a : AfterTx} {st : SState} (h : st ≠ .unassigned) :
    a.target st ≠ .unassigned := by
  cases a with
  | none => exact h
  | serving | standingBy => nofun

/-- No tick of its own takes the id of a slave (43_slave.md R240). -/
theorem Slave.ownTick_keepsId (h : v.ownTick lv = .next v') (hs : v.sstate ≠ .unassigned) :
    v.KeepsId v' := by
  rcases ownTick_cases h with ⟨-, rfl⟩ | ⟨-, rfl⟩ | ⟨-, g, -, rfl⟩ | ⟨-, w, -, rfl⟩ | ⟨-, g, rfl | rfl⟩
  · cases lv <;> exact ⟨id, rfl, rfl⟩
  · exact ⟨id, rfl, rfl⟩
  · exact ⟨id, rfl, rfl⟩
  · have kept := afterWord_keepsId (v := { v with fr := v.fr.received w }) (w := w) hs
    exact { kept with }
  · exact ⟨id, rfl, rfl⟩
  · exact ⟨AfterTx.target_ne_unassigned, rfl, rfl⟩

theorem Slave.ownStep_reset : v.ownStep lv true = .next (Slave.reset v.cfg) := rfl

theorem Slave.ownStep_running : v.ownStep lv false = v.ownTick lv := rfl

end OwnTick

section Presence
variable {s : State} {lv : Bool} {k : Nat} {v : Slave}

theorem slaveTick_listen (hp : v.sph = .listen) :
    slaveTick lv k v s = .next (s.setSlave k (listenTick lv v)) := by
  simp only [slaveTick, hp]

theorem slaveTick_presRel (hp : v.sph = .presRel) (hm : v.fr.fmode = .idle) :
    slaveTick lv k v s = .next (s.setSlave k (v.setDrv false).listening) := by
  have released : presRelTick v = .next (v.setDrv false).listening := Slave.rearm_idle hm
  simp only [slaveTick, hp, released, andThen_next]

/-- Settles O22: the two ticks of a presence. -/
theorem slavePresence : Obligations.SlavePresence :=
  fun _ _ _ _ => ⟨slaveTick_listen, slaveTick_presRel⟩

end Presence

/-- Settles O53: what the slave's own tick does, with the invariant of the slave before the step and of the
slave after it. -/
theorem slaveTransmitsOnlyWhenAsked : Obligations.SlaveTransmitsOnlyWhenAsked := by
  intro s t k v v' hinv h hk hk'
  have tinv : t.Inv := stepKeepsInvariant s t hinv h
  obtain ⟨-, -, hslaves, -⟩ := hinv
  obtain ⟨-, -, hslaves', -⟩ := tinv
  have hv : v.Inv := hslaves v (List.mem_of_getElem? hk)
  have hv' : v'.Inv := hslaves' v' (List.mem_of_getElem? hk')
  obtain ⟨u, hu, hku⟩ := step_slave h hk
  obtain rfl : u = v' := Option.some.inj (hku.symm.trans hk')
  cases hr : s.nextInput.resetSlaves.contains k with
  | true =>
    rw [hr, Slave.ownStep_reset] at hu
    obtain rfl := Host.Outcome.next.inj hu
    exact ⟨nofun, nofun⟩
  | false =>
    rw [hr, Slave.ownStep_running] at hu
    refine ⟨hv.driven_of_ownTick hu, fun ht hp => ?_⟩
    obtain ⟨hrx, w, hw, hvalid, huid⟩ := Slave.ownTick_starts_reply hu hp ht
    obtain ⟨hid, hst, hword⟩ := hv'.reply_word ht
    exact ⟨w, _, hrx, hw, hvalid, huid, huid ▸ hid, hst, hword⟩

end Sys2Proof.Machine
end

section
/-!
PROOF. The reset inputs (70_reset_and_hazards.md R350, R354; 43_slave.md R240): the slaves' steps reach
neither the scan engine nor the mailbox, so what the master's reset leaves there stands at the end of the
tick.
-/

namespace Sys2Proof.Machine

section ResetInputs
variable {s t : State} {lv : Bool} {inp : TickInput}

/-- The slaves' part of a tick does not write the scan engine or the mailbox (20_memory.md R75). -/
theorem slaveSteps_scan_mailbox {ks : List Nat} (h : slaveSteps lv inp ks s = .next t) :
    t.scan = s.scan ∧ t.mailbox = s.mailbox := by
  refine slaveSteps_keeps (P := fun u => u.scan = s.scan ∧ u.mailbox = s.mailbox) ?_ ⟨rfl, rfl⟩ h
  intro k u u' hu hstep
  rcases slaveStep_eq_next hstep with rfl | ⟨v, v', r, -, rfl, -⟩
  · exact hu
  · exact hu

theorem scanStep_reset (hr : inp.resetMaster = true) (b : Bool) : scanStep b inp s = s := if_pos hr

/-- The master's part of a tick with its reset input asserted: whatever the host does, the reset values
stand (log 10). -/
theorem masterStep_reset (hr : inp.resetMaster = true) (h : masterStep lv inp s = .next t) :
    t.master = Master.reset ∧ t.scan = Scan.reset s.params.numScan ∧ t.mailbox = Mailbox.reset := by
  rw [masterStep, if_pos hr] at h
  obtain ⟨s', hs', h⟩ := andThen_eq_next.1 h
  obtain ⟨b, c, a, o, rfl⟩ := hostStep_eq_next hs'
  obtain rfl := Host.Outcome.next.inj h
  exact ⟨rfl, rfl, rfl⟩

/-- Settles O49: the master's part of the tick, and the slave's own step with and without its reset. -/
theorem heldInReset : Obligations.HeldInReset := by
  intro s t h
  refine ⟨fun hr => ?_, fun k v hk hr => ?_, fun k v hk hr hs => ?_⟩
  · obtain ⟨-, s1, s2, h1, h2, rfl⟩ := tick_eq_next h
    obtain ⟨hscan, hmailbox⟩ := slaveSteps_scan_mailbox h2
    rw [scanStep_reset hr, endTick_master, endTick_scan, endTick_mailbox, slaveSteps_master h2, hscan,
      hmailbox]
    exact masterStep_reset (s := s.setHostOut none) hr h1
  · obtain ⟨v', hv', hk'⟩ := step_slave h hk
    rw [hr, Slave.ownStep_reset] at hv'
    exact hk'.trans (congrArg some (Host.Outcome.next.inj hv').symm)
  · obtain ⟨v', hv', hk'⟩ := step_slave h hk
    rw [hr, Slave.ownStep_running] at hv'
    have kept := Slave.ownTick_keepsId hv' hs
    exact ⟨v', hk', kept.assigned hs, kept.ownId, kept.cfg⟩

end ResetInputs

end Sys2Proof.Machine
end

section
/-!
PROOF. The contact scan (44_contact_scan.md R261 to R271). One equation per phase of the engine, with
every line released but the pulsed one, says what its tick does. Beside the well-behaved tag of R261 the engine
samples the presence, then the tag's levels one by one, so that `k` ticks into the frame it holds the low
`k` bits of the identifier.
-/

namespace Sys2Proof.Machine

section ScanTicks
variable {n : Nat} {c : Scan} {b : Mailbox}

theorem Scan.Inv.length_scDrv (h : c.Inv n) : c.scDrv.length = n := by
  simpa using congrArg List.length h.released.drives

theorem Scan.Inv.scDrv_of_ne_rel (h : c.Inv n) (hp : c.scPh ≠ .rel) :
    c.scDrv = List.replicate n false := by
  obtain ⟨-, -, -, -, -, hd⟩ := h
  rwa [if_neg hp] at hd

/-- `Report` of a new identifier (44_contact_scan.md R268). -/
theorem report_of_ne (hv : c.scVal ≠ c.cache.getD c.scIdx 0) :
    report c b = ({ c with cache := c.cache.set c.scIdx c.scVal },
      { valid := true, line := c.scIdx, ident := c.scVal }) := if_pos hv

/-- `Report` of the cached identifier (44_contact_scan.md R268). -/
theorem report_of_eq (hv : c.scVal = c.cache.getD c.scIdx 0) : report c b = (c, b) :=
  if_neg (not_not.2 hv)

/-- After a report the cache of the selected line holds the identifier (44_contact_scan.md R268). -/
theorem Scan.Inv.getD_set_cache (h : c.Inv n) (x : Byte) :
    (c.cache.set c.scIdx x).getD c.scIdx 0 = x := by
  obtain ⟨hi, hl, -⟩ := h
  have hlt : c.scIdx < c.cache.length := hl ▸ hi
  simp [hlt]

variable (hd : c.scDrv.length = n)
include hd

theorem scanTick_pulse (hp : c.scPh = .pulse) (s : Bool) :
    scanTick n s c b =
      ({ c with scDrv := (List.replicate n false).set c.scIdx true, scPh := .rel }, b) := by
  simp [scanTick, hp, hd, List.map_const']

theorem scanTick_rel (hp : c.scPh = .rel) (s : Bool) :
    scanTick n s c b = ({ c with scDrv := List.replicate n false, scPh := .probe }, b) := by
  simp [scanTick, hp, hd, List.map_const']

theorem scanTick_probe_absent (hp : c.scPh = .probe) :
    scanTick n false c b = (({ c with scDrv := List.replicate n false } : Scan).finish n, b) := by
  simp [scanTick, hp, hd, List.map_const']

theorem scanTick_probe_present (hp : c.scPh = .probe) :
    scanTick n true c b =
      ({ c with scDrv := List.replicate n false, scPh := .bit, scK := 0, scVal := 0 }, b) := by
  simp [scanTick, hp, hd, List.map_const']

theorem scanTick_bit (hp : c.scPh = .bit) (s : Bool) :
    scanTick n s c b = (({ c with scDrv := List.replicate n false } : Scan).takeBit s, b) := by
  simp [scanTick, hp, hd, List.map_const']

theorem scanTick_check_valid (hp : c.scPh = .check) :
    scanTick n true c b =
      ((report { c with scDrv := List.replicate n false } b).1.finish n,
        (report { c with scDrv := List.replicate n false } b).2) := by
  simp [scanTick, hp, hd, List.map_const', Config.scanCheckValid]

theorem scanTick_check_invalid (hp : c.scPh = .check) :
    scanTick n false c b = (({ c with scDrv := List.replicate n false } : Scan).finish n, b) := by
  simp [scanTick, hp, hd, List.map_const', Config.scanCheckValid]

/-- The check tick of a valid frame with a new identifier (44_contact_scan.md R267, R268). -/
theorem scanTick_check_reports (hp : c.scPh = .check) (hv : c.scVal ≠ c.cache.getD c.scIdx 0) :
    scanTick n true c b =
      (({ c with scDrv := List.replicate n false, cache := c.cache.set c.scIdx c.scVal } : Scan).finish n,
        { valid := true, line := c.scIdx, ident := c.scVal }) := by
  rw [scanTick_check_valid hd hp,
    report_of_ne (c := { c with scDrv := List.replicate n false }) hv]

/-- The check tick of a discarded frame or of a suppressed identifier (44_contact_scan.md R267, R268). -/
theorem scanTick_check_silent (hp : c.scPh = .check) {s : Bool}
    (hv : ¬ (s = true ∧ c.scVal ≠ c.cache.getD c.scIdx 0)) :
    scanTick n s c b = (({ c with scDrv := List.replicate n false } : Scan).finish n, b) := by
  cases s with
  | false => exact scanTick_check_invalid hd hp
  | true =>
    have seen : c.scVal = c.cache.getD c.scIdx 0 := by simpa using hv
    rw [scanTick_check_valid hd hp,
      report_of_eq (c := { c with scDrv := List.replicate n false }) seen]

end ScanTicks

/-- Settles O40: the pulse, the release and the empty probe, each from the state the last one left. -/
theorem emptyContact : Obligations.EmptyContact := by
  intro n c b b₁ b₂ h hp pulsed released probed
  have hpulsed : pulsed =
      ({ c with scDrv := (List.replicate n false).set c.scIdx true, scPh := .rel }, b) :=
    scanTick_pulse h.length_scDrv hp b₁
  have hreleased : released = ({ c with scDrv := List.replicate n false, scPh := .probe }, b) := by
    simp only [released, hpulsed]
    exact scanTick_rel (by simp) rfl b₂
  refine ⟨hpulsed, hreleased, ?_⟩
  simp only [probed, hreleased]
  rw [scanTick_probe_absent List.length_replicate rfl, Scan.finish, hp]

/-- Settles O42: the cache decides, and a report leaves the identifier there. -/
theorem reportOnce : Obligations.ReportOnce := by
  intro n c b b' x h hnew hx
  rw [report_of_ne hnew]
  have cached := h.getD_set_cache c.scVal
  exact ⟨rfl, report_of_eq cached.symm, congrArg Prod.snd (report_of_ne (by rwa [cached]))⟩

/-- The low `k` bits of an identifier (44_contact_scan.md R265). -/
def lowBits (k : Nat) (x : Byte) : Byte := (x.setWidth k).setWidth 8

section LowBits
variable {k : Nat} {x : Byte}

theorem getLsbD_lowBits {i : Nat} (hi : i < 8) :
    (lowBits k x).getLsbD i = (decide (i < k) && x.getLsbD i) := by
  simp [lowBits, BitVec.getLsbD_setWidth, hi]

theorem lowBits_zero : lowBits 0 x = 0 := by
  refine BitVec.eq_of_getLsbD_eq fun i hi => ?_
  simp [getLsbD_lowBits hi]

theorem lowBits_eight : lowBits 8 x = x := by
  rw [lowBits, BitVec.setWidth_eq, BitVec.setWidth_eq]

/-- The next bit of the identifier put at its place (44_contact_scan.md R262). -/
theorem lowBits_or_bit :
    lowBits k x ||| ((BitVec.ofBool (x.getLsbD k)).setWidth 8 <<< k) = lowBits (k + 1) x := by
  refine BitVec.eq_of_getLsbD_eq fun i hi => ?_
  rw [BitVec.getLsbD_or, getLsbD_lowBits hi, getLsbD_lowBits hi]
  rcases Nat.lt_trichotomy i k with hlt | rfl | hgt
  · simp [hlt, Nat.lt_succ_of_lt hlt]
  · simp [hi]
  · have hsub : i - k ≠ 0 := by omega
    have hnot : ¬ i < k + 1 := by omega
    simp [Nat.lt_asymm hgt, hnot, hsub]

end LowBits

/-- The engine with `k` bits of the identifier `x` read, all of them at 8 (44_contact_scan.md R264). -/
def Scan.reading (n : Nat) (c : Scan) (x : Byte) (k : Nat) : Scan :=
  { c with scPh := if k = 8 then .check else .bit, scK := k, scVal := lowBits k x,
           scDrv := List.replicate n false }

/-- The `k`-th level a tag drives after its presence: the identifier, then the check bit
(44_contact_scan.md R261). -/
def Tag.level (t : Tag) (k : Nat) : Bool := if k < 8 then t.ident.getLsbD k else t.check

/-- The engine and the tag with `k` bits read and the next level on the line (44_contact_scan.md R264). -/
def duringFrame (n : Nat) (c : Scan) (b : Mailbox) (t : Tag) (k : Nat) : (Scan × Mailbox) × Tag × Bool :=
  ((c.reading n t.ident k, b), { t with sent := k + 2 }, t.level k)

section Frame
variable {n k : Nat} {c : Scan} {b : Mailbox} {t : Tag}

theorem Tag.tick_idle (ht : t.sent = 0) : t.tick false = (t, false) := by
  simp [Tag.tick, ht]

theorem Tag.tick_pulsed (ht : t.sent = 0) : t.tick true = ({ t with sent := 1 }, true) := by
  simp [Tag.tick, ht]

theorem Tag.tick_answering (hk : k ≤ 8) (s : Bool) :
    ({ t with sent := k + 1 } : Tag).tick s = ({ t with sent := k + 2 }, t.level k) := by
  rcases hk.lt_or_eq with hlt | rfl
  · simp [Tag.tick, Tag.level, hlt, Nat.succ_le_of_lt hlt]
  · rfl

theorem Tag.tick_last (s : Bool) :
    ({ t with sent := 10 } : Tag).tick s = ({ t with sent := 0 }, false) := rfl

/-- One tick on the level of the selected line, the OR of its two drives (20_memory.md R61). -/
theorem scanWithTag_eq {d level : Bool} (hl : (c.scDrv.getD c.scIdx false || d) = level) :
    scanWithTag n ((c, b), t, d) = (scanTick n level c b, t.tick level) := by
  rw [← hl]
  rfl

theorem takeBit_reading (x : Byte) :
    (c.reading n x k).takeBit (x.getLsbD k) = c.reading n x (k + 1) :=
  congrArg (fun v => ({ c.reading n x (k + 1) with scVal := v } : Scan)) lowBits_or_bit

theorem Scan.Inv.reading_released (h : c.Inv n) (x : Byte) (hk : k ≤ 8) :
    (c.reading n x k).Released n := by
  obtain ⟨hi, hl, -⟩ := h
  exact ⟨hi, hl, hk, rfl⟩

/-- The pulse, the release, which the tag answers with its presence, and the probe, which finds it
(44_contact_scan.md R264, R266). -/
theorem scanWithTag_presence (h : c.Inv n) (hp : c.scPh = .pulse) (ht : t.sent = 0) :
    (scanWithTag n)^[3] ((c, b), t, false) = duringFrame n c b t 0 := by
  have hi : c.scIdx < n := h.1
  have pulse : scanWithTag n ((c, b), t, false) =
      (({ c with scDrv := (List.replicate n false).set c.scIdx true, scPh := .rel }, b), t, false) := by
    rw [scanWithTag_eq (level := false) (by simp [h.scDrv_of_ne_rel (by simp [hp])]),
      scanTick_pulse h.length_scDrv hp, Tag.tick_idle ht]
  have release : scanWithTag n
        (({ c with scDrv := (List.replicate n false).set c.scIdx true, scPh := .rel }, b), t, false) =
      (({ c with scDrv := List.replicate n false, scPh := .probe }, b), { t with sent := 1 }, true) := by
    rw [scanWithTag_eq (level := true) (by simp [hi]), scanTick_rel (by simp) rfl, Tag.tick_pulsed ht]
  have probe : scanWithTag n
        (({ c with scDrv := List.replicate n false, scPh := .probe }, b), { t with sent := 1 }, true) =
      duringFrame n c b t 0 := by
    rw [scanWithTag_eq (level := true) (Bool.or_true _), scanTick_probe_present (by simp) rfl,
      Tag.tick_answering (Nat.zero_le 8), duringFrame, Scan.reading, lowBits_zero, if_neg (by decide)]
  calc (scanWithTag n)^[3] ((c, b), t, false)
      = scanWithTag n (scanWithTag n (scanWithTag n ((c, b), t, false))) := rfl
    _ = duringFrame n c b t 0 := by rw [pulse, release, probe]

/-- Inside a frame every line is released by the engine, so it samples the tag's level alone. -/
theorem scanWithTag_duringFrame_eq :
    scanWithTag n (duringFrame n c b t k) =
      (scanTick n (t.level k) (c.reading n t.ident k) b,
        ({ t with sent := k + 2 } : Tag).tick (t.level k)) :=
  scanWithTag_eq (by simp [Scan.reading])

theorem scanWithTag_duringFrame (hk : k < 8) :
    scanWithTag n (duringFrame n c b t k) = duringFrame n c b t (k + 1) := by
  have level : t.level k = t.ident.getLsbD k := if_pos hk
  have phase : (c.reading n t.ident k).scPh = .bit := if_neg hk.ne
  calc scanWithTag n (duringFrame n c b t k)
      = (((c.reading n t.ident k).takeBit (t.level k), b),
          ({ t with sent := k + 1 + 1 } : Tag).tick (t.level k)) := by
        rw [scanWithTag_duringFrame_eq, scanTick_bit List.length_replicate phase]
        rfl
    _ = duringFrame n c b t (k + 1) := by
        rw [level, takeBit_reading, Tag.tick_answering hk]
        rfl

theorem scanWithTag_reads (hk : k ≤ 8) :
    (scanWithTag n)^[k] (duringFrame n c b t 0) = duringFrame n c b t k := by
  induction k with
  | zero => rfl
  | succ k ih => rw [Function.iterate_succ_apply', ih (Nat.le_of_succ_le hk), scanWithTag_duringFrame hk]

/-- A whole frame: three ticks to find the tag, eight for its identifier, and the check tick, on which the
tag ends its answer (44_contact_scan.md R264). -/
theorem scanWithTag_frame (h : c.Inv n) (hp : c.scPh = .pulse) (ht : t.sent = 0) :
    (scanWithTag n)^[12] ((c, b), t, false) =
      (scanTick n t.check (c.reading n t.ident 8) b, t, false) := by
  have idle : ({ t with sent := 0 } : Tag) = t := ht ▸ rfl
  calc (scanWithTag n)^[12] ((c, b), t, false)
      = scanWithTag n ((scanWithTag n)^[8] ((scanWithTag n)^[3] ((c, b), t, false))) := rfl
    _ = scanWithTag n (duringFrame n c b t 8) := by
        rw [scanWithTag_presence h hp ht, scanWithTag_reads le_rfl]
    _ = (scanTick n t.check (c.reading n t.ident 8) b, t, false) := by
        rw [scanWithTag_duringFrame_eq, Tag.tick_last, idle]
        rfl

end Frame

/-- Settles O41: the check tick of the frame reports or stays silent, and ends the cycle either way. -/
theorem scanReadsTag : Obligations.ScanReadsTag := by
  intro n c b t h hp ht y
  have hy : y = (scanTick n t.check (c.reading n t.ident 8) b, t, false) := scanWithTag_frame h hp ht
  have hn : 0 < n := Nat.zero_lt_of_lt h.1
  have hval : (c.reading n t.ident 8).scVal = t.ident := lowBits_eight
  have released := h.reading_released t.ident (le_refl 8)
  have length : (c.reading n t.ident 8).scDrv.length = n := List.length_replicate
  rw [hy]
  by_cases hrep : t.check = true ∧ t.ident ≠ c.cache.getD c.scIdx 0
  · obtain ⟨hcheck, hnew⟩ := hrep
    have tick := scanTick_check_reports (b := b) length rfl (by rwa [hval])
    rw [hcheck, tick, hval]
    exact ⟨rfl, rfl, hval, rfl, rfl,
      Scan.Released.finish_inv { released with cache := List.length_set.trans released.cache } hn,
      fun _ => ⟨rfl, rfl⟩, fun hnot => absurd ⟨rfl, hnew⟩ hnot⟩
  · have tick := scanTick_check_silent (b := b) (s := t.check) length rfl (by rwa [hval])
    rw [tick]
    exact ⟨rfl, rfl, hval, rfl, rfl, released.finish_inv hn, fun hyes => absurd hyes hrep,
      fun _ => ⟨rfl, rfl⟩⟩

end Sys2Proof.Machine
end

section
/-!
PROOF. The command dispatcher (45_dispatcher.md): the mailbox step (R290 to R294) and the commands of the
host (R282 to R288). The bitmap of R44 is the number whose bits are the list "`false`, then
`Entry.connected` of entry 1, 2, ...", so its bit `i` is read off that list.
-/

namespace Sys2Proof.Machine

section Mailbox
variable {s : State} {m : Master} {g : ScanTarget} {e : Entry}

theorem Entry.takesReport_iff : e.takesReport = true ↔ e.kind ≠ .disconnected ∧ e.stage = .expectAck := by
  simp [Entry.takesReport, Entry.connected]

/-- An entry takes a report in `ExpectAck` alone, so a command that waits for its reply leaves it there. -/
theorem Entry.withReport_of_expectAck (hs : e.stage = .expectAck) :
    e.withReport g = { e with pendValid := true, pendCmd := g.cmd, arg := g.arg.setWidth 16,
                              stage := if g.ff then .expectAny else .expectAck } := by
  rw [Entry.withReport, hs]

/-- An entry that exists has an assignable id, so its report is neither refused nor a fault. -/
theorem applyReport_of_entry (he : tabEntry m.tab g.dev = some e) :
    applyReport g m =
      .next { m with tab := if e.takesReport then setTabEntry m.tab g.dev (e.withReport g) else m.tab } := by
  obtain ⟨hr, -⟩ := tabEntry_eq_some.1 he
  have ha : assignable g.dev = true := decide_eq_true hr
  cases ht : e.takesReport <;> simp [applyReport, ha, he, ht]

theorem dispatchMailbox_empty (hv : s.mailbox.valid = false) : dispatchMailbox s = .next s := by
  simp [dispatchMailbox, hv]

theorem dispatchMailbox_unmapped (hv : s.mailbox.valid = true)
    (hg : s.params.scanTarget s.mailbox.line s.mailbox.ident = none) :
    dispatchMailbox s = .next (s.setMailbox { s.mailbox with valid := false }) := by
  simp [dispatchMailbox, hv, hg]

theorem dispatchMailbox_mapped (hv : s.mailbox.valid = true)
    (hg : s.params.scanTarget s.mailbox.line s.mailbox.ident = some g) :
    dispatchMailbox s = andThen (applyReport g s.master) fun m =>
      .next ((s.setMailbox { s.mailbox with valid := false }).setMaster m) := by
  simp [dispatchMailbox, hv, hg]

/-- The table after a report for the entry `e` (45_dispatcher.md R290). -/
theorem reportedTable_eq (t : List Entry) :
    (if e.takesReport then setTabEntry t g.dev (e.withReport g) else t) =
      if e.kind ≠ .disconnected ∧ e.stage = .expectAck then
        setTabEntry t g.dev { e with pendValid := true, pendCmd := g.cmd, arg := g.arg.setWidth 16,
                                     stage := if g.ff then .expectAny else .expectAck }
      else t := by
  by_cases hc : e.kind ≠ .disconnected ∧ e.stage = .expectAck
  · rw [if_pos (Entry.takesReport_iff.2 hc), if_pos hc, Entry.withReport_of_expectAck hc.2]
  · rw [if_neg (mt Entry.takesReport_iff.1 hc), if_neg hc]

end Mailbox

/-- Settles O43: no report, a report nothing maps, and one that an entry takes or drops. -/
theorem dispatchOfAReport : Obligations.DispatchOfAReport := by
  intro s
  refine ⟨dispatchMailbox_empty, fun hv => ⟨dispatchMailbox_unmapped hv, fun g e hg he => ?_⟩⟩
  rw [dispatchMailbox_mapped hv hg, applyReport_of_entry he, reportedTable_eq]
  rfl

section Bitmap
variable {i j : Nat}

/-- Bit `i` of the number built from a list of bits is its `i`-th bit, 0 past the end. -/
theorem testBit_bitsToNat (bs : List Bool) (i : Nat) : (bitsToNat bs).testBit i = bs.getD i false := by
  induction bs generalizing i with
  | nil => simp [bitsToNat]
  | cons b bs ih =>
    have hbit : bitsToNat (b :: bs) = Nat.bit b (bitsToNat bs) := by
      cases b <;> simp [bitsToNat, Nat.bit_val, Nat.add_comm]
    rw [hbit]
    cases i with
    | zero => exact Nat.testBit_bit_zero b _
    | succ i => exact (Nat.testBit_bit_succ i b _).trans (ih i)

/-- Ids 0 and 255 have no entry (10_state.md R33), and position `j` of a table of any length holds that
of id `j + 1`. -/
theorem connectedAt_ofNat_succ (t : List Entry) (hj : j < 255) :
    connectedAt t (BitVec.ofNat 8 (j + 1)) = ((t.take 254).map Entry.connected).getD j false := by
  have hid : (BitVec.ofNat 8 (j + 1)).toNat = j + 1 := by
    rw [BitVec.toNat_ofNat]; omega
  unfold connectedAt tabEntry
  rw [hid]
  by_cases hr : j < 254
  · rw [if_pos ⟨Nat.le_add_left 1 j, hr⟩, Nat.add_sub_cancel]
    cases ht : t[j]? <;> simp [hr, ht]
  · rw [if_neg fun h => hr h.2]
    simp [hr]

/-- Bit `i` of the bitmap, for every index of its 256 bits (10_state.md R44). -/
theorem Master.getLsbD_bitmap (m : Master) (hi : i < 256) :
    m.bitmap.getLsbD i = connectedAt m.tab (BitVec.ofNat 8 i) := by
  rw [Master.bitmap, BitVec.getLsbD_ofNat, testBit_bitsToNat, decide_eq_true hi, Bool.true_and]
  cases i with
  | zero => rfl
  | succ j => exact (connectedAt_ofNat_succ m.tab (Nat.lt_of_succ_lt_succ hi)).symm

theorem Master.length_bitmapWords (m : Master) : m.bitmapWords.length = 8 := by
  simp [Master.bitmapWords]

/-- The words hold the bitmap 32 bits at a time, the lowest ids first (45_dispatcher.md R287). -/
theorem Master.getLsbD_bitmapWords (m : Master) (hi : i < 256) :
    (m.bitmapWords.getD (i / 32) 0).getLsbD (i % 32) = m.bitmap.getLsbD i := by
  have hk : i / 32 < 8 := by omega
  have hb : i % 32 < 32 := Nat.mod_lt i (by decide)
  have hword : m.bitmapWords.getD (i / 32) 0 = m.bitmapWord (i / 32) := by
    simp [Master.bitmapWords, hk]
  rw [hword, Master.bitmapWord, BitVec.getLsbD_extractLsb', decide_eq_true hb, Bool.true_and,
    Nat.div_add_mod]

end Bitmap

theorem exec_hostBitmap (s : State) :
    exec .hostBitmap s = .next { s with hostOut := some (.bitmap s.master.bitmapWords) } := rfl

theorem exec_hostLastFault (s : State) :
    exec .hostLastFault s = .next { s with hostOut := some (.lastFault s.master.lastFault.code) } := rfl

/-- Settles O47: bit `i` of the eight words is bit `i` of the bitmap; the fault is answered as its code. -/
theorem hostReads : Obligations.HostReads := by
  intro s
  refine ⟨⟨s.master.bitmapWords, exec_hostBitmap s, s.master.length_bitmapWords, fun i hi => ?_⟩, ?_⟩
  · exact (s.master.getLsbD_bitmapWords hi).trans (s.master.getLsbD_bitmap hi)
  · rw [exec_hostLastFault]
    cases s.master.lastFault <;> rfl

/-- Settles O44: both commands are `queueBcast`, which overwrites the slot without reading it. -/
theorem hostLightQueuesBroadcast : Obligations.HostLightQueuesBroadcast :=
  fun _ => ⟨rfl, rfl⟩

/-- Settles O45. -/
theorem hostEnableAndCancel : Obligations.HostEnableAndCancel :=
  fun _ => ⟨rfl, rfl⟩

/-- The motor command by its direction (45_dispatcher.md R286). -/
theorem exec_hostMotor (dir : BitVec 4) (speed : Byte) (s : State) :
    exec (.hostMotor dir speed) s =
      if dir = 0 then .next (s.setMaster (s.master.queueBcast opMotorA speed))
      else if dir = 1 then .next (s.setMaster (s.master.queueBcast opMotorB speed))
      else .next s := rfl

/-- Settles O46: direction 0, direction 1 and every other one. -/
theorem hostMotorQueuesBroadcast : Obligations.HostMotorQueuesBroadcast := by
  intro s dir speed
  have h0 : dir.toNat = 0 ↔ dir = 0 := BitVec.toNat_inj (y := 0)
  have h1 : dir.toNat = 1 ↔ dir = 1 := BitVec.toNat_inj (y := 1)
  rw [exec_hostMotor]
  simp only [h0, h1]
  split_ifs
  · rfl
  · rfl
  · rfl

end Sys2Proof.Machine
end

section
/-!
PROOF. A receive under the fault threshold is bounded (60_exceptions.md R320). How many ticks it can still take
follows from the part of the frame it is in: every tick spends one of them or ends the receive.
-/

namespace Sys2Proof.Machine

/-- A receive under the threshold `n` that is over, or has at most `d` ticks left: a failed detection each up to
the threshold, one tick per half of the start pair, and the 64 data ticks (40_framer.md R131 to R133). -/
inductive Framer.EndsWithin (n d : Nat) (f : Framer) : Prop
  | ended (idle : f.fmode = .idle) (done : f.fdone = true)
  | seekHi (rx : f.fmode = .rx) (sub : f.rxSub = .seekHi) (below : f.fails < n)
      (left : n + 65 ≤ f.fails + d)
  | seekLo (rx : f.fmode = .rx) (sub : f.rxSub = .seekLo) (below : f.fails < n)
      (left : n + 64 ≤ f.fails + d)
  | data (rx : f.fmode = .rx) (sub : f.rxSub = .data) (inField : f.rxPos < 64) (left : 64 ≤ f.rxPos + d)

section Bound
variable {f : Framer} {n d : Nat}

/-- With no tick left the receive is over. -/
theorem Framer.EndsWithin.ended_of_zero (h : f.EndsWithin n 0) : f.fmode = .idle ∧ f.fdone = true := by
  cases h with
  | ended idle done => exact ⟨idle, done⟩
  | seekHi _ _ below left => omega
  | seekLo _ _ below left => omega
  | data _ _ inField left => omega

/-- A failed detection that does not end the receive leaves it where it was, one nearer to the threshold. -/
theorem Framer.EndsWithin.failedDetection
    (counted : f.fails + 1 < n → ({ f with fails := f.fails + 1 } : Framer).EndsWithin n d) :
    (f.failedDetection (some n)).1.EndsWithin n d := by
  by_cases hn : n ≤ f.fails + 1
  · rw [failedDetection_aborts hn]
    exact .ended rfl rfl
  · rw [failedDetection_counts fun m hm => by cases hm; omega]
    exact counted (by omega)

/-- Every tick spends one of those left (40_framer.md R131 to R133). -/
theorem Framer.EndsWithin.rxTick (h : f.EndsWithin n (d + 1)) (b : Bool) :
    (f.rxTick (some n) b).1.EndsWithin n d := by
  cases h with
  | ended idle done =>
    rw [rxTick_other _ b (by simp [idle])]
    exact .ended idle done
  | seekHi rx sub below left =>
    cases b with
    | true =>
      rw [rxTick_seekHi_active _ rx sub]
      exact .seekLo rx rfl below (by show n + 64 ≤ f.fails + d; omega)
    | false =>
      rw [rxTick_seekHi_idle _ rx sub]
      exact .failedDetection fun hn => .seekHi rx sub hn (by show n + 65 ≤ f.fails + 1 + d; omega)
  | seekLo rx sub below left =>
    cases b with
    | true =>
      rw [rxTick_seekLo_active _ rx sub]
      exact .failedDetection fun hn => .seekLo rx sub hn (by show n + 64 ≤ f.fails + 1 + d; omega)
    | false =>
      rw [rxTick_seekLo_idle _ rx sub]
      exact .data rx rfl (Nat.zero_lt_succ 63) (by show 64 ≤ 0 + d; omega)
  | data rx sub inField left =>
    rw [rxTick_data _ b rx sub]
    by_cases hp : f.rxPos = 63
    · rw [dataTick_last hp]
      exact .ended rfl rfl
    · rw [dataTick_running hp]
      exact .data rx sub (by show f.rxPos + 1 < 64; omega) (by show 64 ≤ f.rxPos + 1 + d; omega)

/-- As many samples as there are ticks left end the receive. -/
theorem Framer.EndsWithin.rxRun {bs : List Bool} (h : f.EndsWithin n bs.length) :
    (rxRun (some n) bs f).fmode = .idle ∧ (rxRun (some n) bs f).fdone = true := by
  induction bs generalizing f with
  | nil => exact h.ended_of_zero
  | cons b bs ih => exact ih (h.rxTick b)

/-- Settles O14: an armed receive has `n + 65` ticks left. -/
theorem receiveIsBounded : Obligations.ReceiveIsBounded := by
  intro f n bs hn hlen
  have armed : f.seeking.EndsWithin n bs.length :=
    .seekHi rfl rfl hn (by show n + 65 ≤ 0 + bs.length; omega)
  exact armed.rxRun

end Bound

end Sys2Proof.Machine
end

section
/-!
PROOF. Taking a fault (60_exceptions.md R318): the polled entry is cleared and the code recorded, and the cursor
then advances over the new table.
-/

namespace Sys2Proof.Machine

theorem raiseFault_eq {m : Master} {e : Entry} (code : FaultCode)
    (h : tabEntry m.tab m.cursor = some e) :
    raiseFault code m =
      .next ({ m with tab := setTabEntry m.tab m.cursor Entry.reset, lastFault := code } : Master).advance := by
  simp only [raiseFault, h]

/-- Settles O26: the two writes of `raise F`, then the advance over the table they leave. -/
theorem faultAction : Obligations.FaultAction := by
  intro m e code he
  refine ⟨_, raiseFault_eq code he, tabEntry_setTabEntry_same _ he,
    fun i hi => tabEntry_setTabEntry_other _ hi.symm, setTabEntry_length .., rfl, fun i hi => ?_,
    fun hnone => ?_, rfl⟩
  · exact congrArg (fun o => o.getD m.cursor) hi
  · exact congrArg (fun o => o.getD m.cursor) hnone

end Sys2Proof.Machine
end

section
/-!
PROOF. From every state of the invariant the step answers (60_exceptions.md R320, 70_reset_and_hazards.md R360,
R375). What could stop a part of the tick is an arming of a busy framer, an entry or a free id that is not there,
a report mapped outside 1..254, or a decision while a reply is awaited; the invariant excludes each where it
could happen.
-/

namespace Sys2Proof.Machine

/-- The operation answers: it neither faults nor is refused. -/
def IsNext {α : Type} (o : Res α) : Prop := ∃ a, o = .next a

theorem IsNext.of_eq {α : Type} {o : Res α} {a : α} (h : o = .next a) : IsNext o := ⟨a, h⟩

theorem isNext_next {α : Type} (a : α) : IsNext (.next a : Res α) := .of_eq rfl

/-- A sequence answers when its first part does, and its second part on that answer. -/
theorem IsNext.andThen {α β : Type} {o : Res α} {f : α → Res β} (ho : IsNext o)
    (hf : ∀ a, o = .next a → IsNext (f a)) : IsNext (andThen o f) := by
  obtain ⟨a, rfl⟩ := ho
  exact hf a rfl

/-- What is only written back after an answer answers too. -/
theorem IsNext.map {α β : Type} {o : Res α} (ho : IsNext o) (g : α → β) :
    IsNext (Machine.andThen o fun a => .next (g a)) :=
  ho.andThen fun a _ => isNext_next (g a)

section Deciding
variable {s : State} {m : Master} {g : ScanTarget} {line : Nat} {ident : Byte}

/-- No report is mapped outside 1..254 (00_scope.md R10). -/
theorem Params.Inv.assignable_scanTarget {p : Params} (h : p.Inv)
    (hg : p.scanTarget line ident = some g) : assignable g.dev = true := by
  obtain ⟨row, hrow, rfl⟩ := Option.map_eq_some_iff.1 hg
  exact h.2 row (List.mem_of_find?_eq_some hrow)

/-- A report in the mailbox names an entry there is, or is dropped (45_dispatcher.md R290). -/
theorem dispatchMailbox_isNext (hp : s.params.Inv) (ht : TableInv s.master.tab) :
    IsNext (dispatchMailbox s) := by
  cases hv : s.mailbox.valid with
  | false => exact ⟨_, dispatchMailbox_empty hv⟩
  | true =>
    cases hg : s.params.scanTarget s.mailbox.line s.mailbox.ident with
    | none => exact ⟨_, dispatchMailbox_unmapped hv hg⟩
    | some g =>
      obtain ⟨e, he⟩ := tabEntry_of_assignable ht.1 (hp.assignable_scanTarget hg)
      rw [dispatchMailbox_mapped hv hg, applyReport_of_entry he]
      exact isNext_next _

/-- With something connected the cursor is on a connected entry, which can be polled
(42_master.md R174 to R177). -/
theorem Master.AtRest.decidePolling_isNext (h : m.AtRest) (hc : connectedCount m.tab ≠ 0) :
    IsNext (decidePolling m) := by
  cases hb : m.bcValid with
  | true => exact ⟨_, decidePolling_bcast h.idle hb⟩
  | false =>
    cases hen : m.enumEn with
    | true => exact ⟨_, decidePolling_announce h.idle hb hen⟩
    | false =>
      obtain ⟨hcursor, hconnected⟩ := h.cursorInv
      obtain ⟨e, he⟩ := tabEntry_of_assignable h.table.1 hcursor
      rw [decidePolling_poll hb hen]
      exact ⟨_, armPoll_eq h.idle (repairCursor_eq (.inl ⟨hconnected hc, rfl⟩)) he⟩

/-- `MasterDecide` (42_master.md R170) answers when no reply is awaited. -/
theorem Master.AtRest.masterDecide_isNext (h : m.AtRest) (hst : m.mstate ≠ .awaitingHandshakeReply) :
    IsNext (masterDecide m) := by
  cases hs : m.mstate with
  | acceptingConnections =>
    have polling : ({ m with mstate := .polling } : Master).AtRest := { h with }
    rw [masterDecide_accepting hs]
    split_ifs with _ _ hc
    · exact isNext_next _
    · exact isNext_next _
    · exact polling.decidePolling_isNext hc.ne'
    · exact isNext_next _
  | polling =>
    rw [masterDecide_polling hs]
    split_ifs with hc
    · exact isNext_next _
    · exact isNext_next _
    · exact isNext_next _
    · exact h.decidePolling_isNext hc
  | awaitingHandshakeReply => exact absurd hs hst

/-- A decision tick (20_memory.md R75): the dispatch leaves the master at rest. -/
theorem decisionSequence_isNext (hp : s.params.Inv) (hm : s.master.AtRest)
    (hst : s.master.mstate ≠ .awaitingHandshakeReply) : IsNext (decisionSequence s) := by
  refine (dispatchMailbox_isNext hp hm.table).andThen fun s' hs' => ?_
  obtain ⟨b, tab, rfl, hmap, htab⟩ := dispatchMailbox_effect hs'
  exact ((hm.withTable (htab hm.table) hmap).masterDecide_isNext hst).map _

end Deciding

section Replying
variable {s t : State} {m : Master} {e : Entry} {uid data endm c : Byte}

/-- A reply is handled when there is a polled entry (42_master.md R185). -/
theorem handleReply_isNext (he : tabEntry m.tab m.cursor = some e) :
    IsNext (handleReply uid data endm c m) := by
  cases hv : fieldsValid uid data endm c with
  | false => exact ⟨_, handleReply_invalid he hv⟩
  | true =>
    by_cases hu : uid = m.cursor
    · subst hu
      cases hs : stageRule data e with
      | error code => exact ⟨_, handleReply_fault he hv hs⟩
      | ok e' => exact ⟨_, handleReply_accepted he hv hs⟩
    · exact ⟨_, handleReply_foreign he hv hu⟩

/-- The completed reply, with a word or without one (42_master.md R185). -/
theorem completeReply_isNext (he : tabEntry s.master.tab s.master.cursor = some e) :
    IsNext (completeReply s) := by
  cases hf : s.master.fr.fstatus with
  | sync => exact ⟨_, silentReplyFaults s e he hf⟩
  | ok =>
    simp only [completeReply, hf, exec_decodeWord]
    rw [receive_master rfl]
    exact (handleReply_isNext he).map _

theorem stateAfterReply_ne_awaiting (tab : List Entry) (b : Bool) :
    stateAfterReply tab b ≠ .awaitingHandshakeReply := by
  unfold stateAfterReply
  split_ifs <;> nofun

/-- After a reply none is awaited (42_master.md R194). -/
theorem completeReply_mstate_ne_awaiting (h : completeReply s = .next t) :
    t.master.mstate ≠ .awaitingHandshakeReply := by
  obtain ⟨r, m, e, rfl, -, ⟨code, rfl⟩ | ⟨data, endm, e', -, rfl⟩⟩ := completeReply_eq_next h
  · exact stateAfterReply_ne_awaiting _ _
  · exact stateAfterReply_ne_awaiting _ _

end Replying

section MasterPhases
variable {s : State} {m : Master} {n : Nat} {lv : Bool} {inp : TickInput}

/-- Outside frames no reply is awaited (42_master.md R170). -/
theorem Master.Inv.mstate_of_idle (h : m.Inv n) (hp : m.mph.fmode = .idle) :
    m.mstate = .acceptingConnections := by
  obtain ⟨-, -, hst, -⟩ := h
  exact hst.trans (MPhase.mstate_of_idle hp)

/-- The decision of a phase outside frames, which first releases the line (42_master.md R161). -/
theorem State.Inv.releasedDecision_isNext (hs : s.Inv) (hp : s.master.mph.fmode = .idle) :
    IsNext (decisionSequence (s.setMaster (s.master.setDrv false))) := by
  obtain ⟨others, hm⟩ := State.inv_iff.1 hs
  have accepting := hm.mstate_of_idle hp
  exact decisionSequence_isNext (s := s.setMaster (s.master.setDrv false)) others.1
    (hm.setDrv_atRest hp false) (by show s.master.mstate ≠ _; simp [accepting])

/-- `mph = INV_A` (42_master.md R182). -/
theorem invATick_isNext (hs : s.Inv) (hp : s.master.mph = .invA) : IsNext (invATick lv s) := by
  have parts := hs
  obtain ⟨hparams, ⟨-, -, -, -, -, ht, -⟩, -⟩ := parts
  unfold invATick
  split_ifs
  · exact isNext_next _
  · exact hs.releasedDecision_isNext (by rw [hp]; rfl)
  · exact (dispatchMailbox_isNext hparams ht).map _

/-- `mph = GAP_ASSIGN` (42_master.md R183): an id is free while the master invites. -/
theorem Master.Inv.gapAssignTick_isNext (h : m.Inv n) (hp : m.mph = .gapAssign) :
    IsNext (Machine.gapAssignTick m) := by
  obtain ⟨ready, -⟩ := h.countDown (.inl hp)
  obtain ⟨-, -, -, -, -, -, -, -, -, -, ⟨-, hfree, -⟩⟩ := h
  obtain ⟨i, hi⟩ := Option.isSome_iff_exists.1 (hfree (by rw [hp]; rfl))
  rw [gapAssignTick_eq]
  split_ifs
  · exact ⟨_, assignId_eq ready.idle hi⟩
  · exact isNext_next _

/-- `mph = GAP_MARKER` (42_master.md R184). -/
theorem Master.Inv.gapMarkerTick_isNext (h : m.Inv n) (hp : m.mph = .gapMarker) :
    IsNext (Machine.gapMarkerTick m) := by
  obtain ⟨ready, -⟩ := h.countDown (.inr hp)
  rw [gapMarkerTick_eq]
  split_ifs
  · exact ⟨_, armMarker_eq ready.idle⟩
  · exact isNext_next _

/-- The follow-up of a completed transmit, by phase (42_master.md R172); the framer is idle then. -/
theorem txFollowUp_isNext (hs : s.Inv) {f : Framer} (hf : f.Inv) (hi : f.fmode = .idle) :
    IsNext (txFollowUp (s.setMasterFramer f)) := by
  obtain ⟨others, hm⟩ := State.inv_iff.1 hs
  have rest := hm.atRest hf hi
  obtain ⟨-, -, hst, -⟩ := hm
  cases hp : s.master.mph with
  | txPoll =>
    rw [txFollowUp_poll (s := s.setMasterFramer f) hp]
    exact (IsNext.of_eq (Master.armRx_idle (m := { s.master with fr := f }) hi)).map _
  | txBcast =>
    rw [hp] at hst
    rw [txFollowUp_bcast (s := s.setMasterFramer f) hp]
    exact decisionSequence_isNext (s := s.setMasterFramer f) others.1 rest
      (by show s.master.mstate ≠ _; rw [hst]; nofun)
  | txAnnounce =>
    rw [txFollowUp_announce (s := s.setMasterFramer f) hp]
    refine decisionSequence_isNext ?_ ?_ ?_
    · exact others.1
    · exact { rest with }
    · nofun
  | txMarker =>
    rw [hp] at hst
    rw [txFollowUp_marker (s := s.setMasterFramer f) hp]
    split_ifs
    · exact (IsNext.of_eq (armMarker_eq (m := { s.master with fr := f, mkCnt := s.master.mkCnt + 1 }) hi)).map _
    · refine decisionSequence_isNext ?_ ?_ ?_
      · exact others.1
      · exact { rest with }
      · show (if _ then _ else s.master.mstate) ≠ _
        rw [hst]
        split_ifs <;> nofun
  | _ =>
    rw [txFollowUp_other (s := s.setMasterFramer f) (by show s.master.mph.fmode ≠ _; rw [hp]; nofun)]
    exact isNext_next _

/-- A transmit phase (42_master.md R161). -/
theorem masterTxTick_isNext (hs : s.Inv) (hp : s.master.mph.fmode = .tx) : IsNext (masterTxTick s) := by
  have parts := hs
  obtain ⟨-, ⟨hf, hmode, -⟩, -⟩ := parts
  rw [masterTxTick_eq]
  rcases hf.txTick (hmode.trans hp) with ⟨g, hg, -⟩ | ⟨g, hg, hgi, hgm, -⟩
  · rw [hg]
    exact isNext_next _
  · rw [hg]
    exact txFollowUp_isNext hs hgi hgm

/-- The receive tick of a reply, under the threshold of the parameters (40_framer.md R131 to R133). -/
theorem State.Inv.replyTick (hs : s.Inv) (hp : s.master.mph = .rxReply) (lv : Bool) :
    Framer.RxResult s.params.threshold (s.master.fr.rxTick s.params.threshold lv) := by
  obtain ⟨-, ⟨hf, hmode, -, -, hfails, -⟩, -⟩ := hs
  have hrx : s.master.fr.fmode = .rx := by rw [hmode, hp]; rfl
  exact hf.rxTick hrx (fun k hk => by simpa [hk] using hfails hrx) lv

/-- `mph = RX_REPLY` (42_master.md R161, R172): the polled entry is there, and after its reply the master may
decide. -/
theorem masterRxTick_isNext (hs : s.Inv) (hp : s.master.mph = .rxReply) :
    IsNext (masterRxTick lv s) := by
  obtain ⟨others, hm⟩ := State.inv_iff.1 hs
  have parts := hm
  obtain ⟨-, -, -, -, -, ht, -, hpoll, -⟩ := parts
  obtain ⟨hcon, -⟩ := hpoll (.inr hp)
  obtain ⟨e, he⟩ := tabEntry_of_assignable ht.1 (assignable_of_connectedAt hcon)
  rw [masterRxTick_eq]
  rcases hs.replyTick hp lv with ⟨g, hg, -⟩ | ⟨g, hg, hgi, hgm, hgd⟩
  · rw [hg]
    exact isNext_next _
  · rw [hg]
    refine IsNext.andThen (completeReply_isNext (s := s.setMasterFramer g) he) fun s' hs' => ?_
    obtain ⟨others', ready⟩ := completeReply_ready (s := s.setMasterFramer g) others
      (hm.ready (by simp [hp]) hgi hgm hgd) hcon hs'
    exact decisionSequence_isNext others'.1 ready.toAtRest (completeReply_mstate_ne_awaiting hs')

/-- One tick of the master (42_master.md R161). -/
theorem State.Inv.masterTick_isNext (hs : s.Inv) : IsNext (Machine.masterTick lv s) := by
  have parts := hs
  obtain ⟨-, hm, -⟩ := parts
  cases hp : s.master.mph with
  | idle =>
    simp only [Machine.masterTick, hp]
    exact hs.releasedDecision_isNext (by rw [hp]; rfl)
  | invFirst => exact ⟨_, masterTick_invFirst hp⟩
  | invB => exact ⟨_, masterTick_invB hp⟩
  | invA => exact masterTick_invA hp ▸ invATick_isNext hs hp
  | gapAssign => exact masterTick_gapAssign hp ▸ (hm.gapAssignTick_isNext hp).map _
  | gapMarker => exact masterTick_gapMarker hp ▸ (hm.gapMarkerTick_isNext hp).map _
  | rxReply => exact masterTick_rxReply hp ▸ masterRxTick_isNext hs hp
  | txPoll | txBcast | txAnnounce | txMarker =>
    simp only [Machine.masterTick, hp]
    exact masterTxTick_isNext hs (by rw [hp]; rfl)

/-- At most one host command is never refused (45_dispatcher.md R280 to R288). -/
theorem hostStep_isNext (h : inp.host.length ≤ 1) : IsNext (hostStep inp s) := by
  rcases hin : inp.host with _ | ⟨cmd, _ | ⟨_, _⟩⟩
  · exact ⟨_, hostStep_none hin⟩
  · rw [hostStep_one hin]
    cases cmd with
    | light on => cases on <;> exact isNext_next _
    | motor dir speed =>
      show IsNext (execHostMotor dir speed s)
      unfold execHostMotor
      split_ifs <;> exact isNext_next _
    | bitmap | enable | cancel | lastFault => exact isNext_next _
  · simp [hin] at h

/-- The master's part of a tick, held in reset or not (70_reset_and_hazards.md R350). -/
theorem State.Inv.masterStep_isNext (hs : s.Inv) (h : inp.host.length ≤ 1) :
    IsNext (Machine.masterStep lv inp s) := by
  unfold Machine.masterStep
  split_ifs
  · exact (hostStep_isNext h).map _
  · exact (hostStep_isNext h).andThen fun s' hs' => (hs.hostStep hs').masterTick_isNext

end MasterPhases

section SlavePhases
variable {s : State} {v : Slave} {k : Nat} {lv : Bool} {inp : TickInput}

/-- `sph = PRES_REL` (43_slave.md R212): the framer is free for the receive. -/
theorem Slave.Inv.presRelTick_isNext (h : v.Inv) (hp : v.sph = .presRel) : IsNext (Machine.presRelTick v) := by
  obtain ⟨-, hm, -⟩ := h
  have hidle : v.fr.fmode = .idle := by rw [hm, hp]; rfl
  exact ⟨_, Slave.rearm_idle (v := v.setDrv false) hidle⟩

/-- `sph = TX` (43_slave.md R213): the framer is free again when the reply is sent. -/
theorem Slave.Inv.slaveTxTick_isNext (h : v.Inv) (hp : v.sph = .tx) : IsNext (Machine.slaveTxTick v) := by
  obtain ⟨hf, hm, -⟩ := h
  unfold Machine.slaveTxTick
  rcases hf.txTick (by rw [hm, hp]; rfl) with ⟨g, hg, -⟩ | ⟨g, hg, -, hgm, -⟩
  · rw [hg]
    exact isNext_next _
  · rw [hg]
    exact ⟨_, Slave.rearm_idle (v := ({ v with fr := g } : Slave).settle) hgm⟩

/-- `sph = RX` (43_slave.md R213): the packet finds the framer free, whatever its word is. -/
theorem Slave.Inv.slaveRxTick_isNext (h : v.Inv) (hp : v.sph = .rx) (hk : s.slaves[k]? = some v) :
    IsNext (Machine.slaveRxTick lv k v s) := by
  obtain ⟨-, completed⟩ := h.rxTick hp lv
  obtain ⟨hlt, -⟩ := List.getElem?_eq_some_iff.1 hk
  simp only [Machine.slaveRxTick, exec_decodeWord]
  split_ifs with hdone
  · rw [receive_slave (v := { v with fr := (v.fr.rxTick none lv).1 }) rfl (List.getElem?_set_self hlt)]
    exact (IsNext.of_eq (onPacket_eq_afterWord (completed hdone).idle)).map _
  · exact isNext_next _

/-- One tick of a slave (43_slave.md R210). -/
theorem Slave.Inv.slaveTick_isNext (h : v.Inv) (hk : s.slaves[k]? = some v) :
    IsNext (Machine.slaveTick lv k v s) := by
  unfold Machine.slaveTick
  cases hp : v.sph with
  | listen => exact isNext_next _
  | presRel => exact (h.presRelTick_isNext hp).map _
  | rx => exact h.slaveRxTick_isNext hp hk
  | tx => exact (h.slaveTxTick_isNext hp).map _

/-- A slave's part of a tick, held in reset or not (70_reset_and_hazards.md R350). -/
theorem State.Inv.slaveStep_isNext (hs : s.Inv) (k : Nat) : IsNext (Machine.slaveStep lv inp k s) := by
  obtain ⟨-, -, hslaves, -⟩ := hs
  unfold Machine.slaveStep
  cases hk : s.slaves[k]? with
  | none => exact isNext_next _
  | some v =>
    dsimp only
    split_ifs
    · exact isNext_next _
    · exact (hslaves v (List.mem_of_getElem? hk)).slaveTick_isNext hk

theorem State.Inv.slaveSteps_isNext (hs : s.Inv) (ks : List Nat) : IsNext (Machine.slaveSteps lv inp ks s) := by
  induction ks generalizing s with
  | nil => exact isNext_next _
  | cons k ks ih => exact (hs.slaveStep_isNext k).andThen fun s' hs' => ih (hs.slaveStep hs')

end SlavePhases

/-- Settles O60: the parameters are accepted, and the master's part and the slaves' parts of the tick answer one
after the other, each in a state of the invariant. -/
theorem stepProgress : Obligations.StepProgress := by
  intro s hs hone
  have inv0 : (s.setHostOut none).Inv := hs
  have parts := hs
  obtain ⟨⟨hparams, -⟩, -⟩ := parts
  rw [step_eq_afterMaster hparams]
  refine (inv0.masterStep_isNext hone).andThen fun s1 h1 => ?_
  exact ((inv0.masterStep h1).slaveSteps_isNext _).map _

end Sys2Proof.Machine
end
